-- ==== Sys2Proof/Word.lean ====
section
/-! DEFINITION. Word.lean: the widths the spec gives its values (00_scope.md R8 to R11, R17) and the four-byte frame
buffer's shape (10_state.md R38). Byte-order and field helpers stand in Machine/Operands.lean. -/

namespace Sys2Proof

/-- A byte, 8 bits unsigned (00_scope.md R17); also a sensor-type tag, `TYPE_W = 8` (R11). -/
abbrev Byte := BitVec 8

/-- A 16-bit unsigned value: a slot's raw value, `VALUE_W = 16` (00_scope.md R9), or a checksum (41_checksum.md R130). -/
abbrev Half := BitVec 16

/-- A nibble: a command, `CMD_W = 4`, a protocol address, `ADDR_W = 4` (00_scope.md R10), or a host selector `op`
(30_encoding.md R94). -/
abbrev Nibble := BitVec 4

/-- `CAP = 4`, the number of slots of the Sensor Table (00_scope.md R8). -/
abbrev CAP : Nat := 4

/-- The four bytes of a framed packet, `frame[0]` to `frame[3]`, oldest first (10_state.md R38, 42_framing.md R142). -/
structure Frame where
  b0 : Byte
  b1 : Byte
  b2 : Byte
  b3 : Byte
  deriving DecidableEq, Repr

end Sys2Proof
end

