-- ==== Sys2Proof/Syntax.lean ====
section
/-! DEFINITION. Syntax.lean: one constructor per row of spec/opcode_table.json (30_encoding.md). -/

namespace Sys2Proof

/-- The semantic kinds of the set-by-kind operation, in the source's order: internal voltage, external voltage,
temperature, RPM (30_encoding.md R95, 00_scope.md R13). -/
inductive Kind where
  | intv
  | extv
  | temp
  | rpm
  deriving DecidableEq, Repr

/-- The `x` operand of the set-by-kind operation, a real number in the kind's unit (30_encoding.md R94,
44_host_interface.md R195), as plain data: a rational is written out; any real number at all is presented by a name, and
`Config.reading` says which it is (notes/assumptions/6.md). -/
inductive Reading where
  /-- A rational reading. -/
  | rational (q : Rat)
  /-- The real number `Config.reading k`. -/
  | named (k : Nat)
  deriving DecidableEq, Repr

/-- The four places at which encoded words are read: request frames from the receiver (30_encoding.md R80), response
frames to the receiver (R84 to R86), host transactions (R94) and the internal table selector (R96). The selectors of the
last two overlap as numbers, and a DISCOVER response has the bytes of a DISCOVER request (41_checksum.md R137), so a word
is read together with the place it stands at. -/
inductive Port where
  | request
  | response
  | host
  | table
  deriving DecidableEq, Repr

/-- The instructions. The operands of a row are its fields that are not fixed: `addr` is `ADDR`, `cmd` is `CMD`,
`chk` is `CHK` as received or sent (30_encoding.md R80 to R86, R94 to R96). -/
inductive Instr where
  /-- REQ_DISCOVER: a framed request with length byte 0x04 and command nibble 0x8 (43_dispatch.md R165). -/
  | reqDiscover (addr : Nibble) (chk : Half)
  /-- REQ_TYPE: command nibble 0x9 (43_dispatch.md R169). -/
  | reqType (addr : Nibble) (chk : Half)
  /-- REQ_MEASUREMENT: command nibble 0xA (43_dispatch.md R172). -/
  | reqMeasurement (addr : Nibble) (chk : Half)
  /-- REQ_UNHANDLED_CMD_0x0_TO_0x7 (43_dispatch.md R176). -/
  | reqUnhandledLow (cmd addr : Nibble) (chk : Half)
  /-- REQ_UNHANDLED_CMD_0xB_TO_0xF (43_dispatch.md R176). -/
  | reqUnhandledHigh (cmd addr : Nibble) (chk : Half)
  /-- RSP_DISCOVER: the 4-byte DISCOVER response (30_encoding.md R84). -/
  | rspDiscover (addr : Nibble) (chk : Half)
  /-- RSP_TYPE: the 6-byte TYPE response (30_encoding.md R85). -/
  | rspType (addr : Nibble) (type : Byte) (chk : Half)
  /-- RSP_MEASUREMENT: the 6-byte MEASUREMENT response (30_encoding.md R86). -/
  | rspMeasurement (addr : Nibble) (value : Half) (chk : Half)
  /-- HOST_INIT: bind to the transport named `T` (44_host_interface.md R190). -/
  | hostInit (T : Nat)
  /-- HOST_POLL (42_framing.md R140). -/
  | hostPoll
  /-- HOST_UPSERT (44_host_interface.md R192). -/
  | hostUpsert (t : Byte) (v : Half)
  /-- HOST_SET_KIND: the reading `x`, a real number in the kind's unit (44_host_interface.md R195). -/
  | hostSetKind (k : Kind) (x : Reading)
  /-- HOST_GET_REQ_COUNT (44_host_interface.md R196). -/
  | hostGetReqCount
  /-- HOST_GET_RESP_COUNT (44_host_interface.md R197). -/
  | hostGetRespCount
  /-- HOST_GET_DISCOVERED (44_host_interface.md R198). -/
  | hostGetDiscovered
  /-- HOST_SET_DEBUG (44_host_interface.md R199). -/
  | hostSetDebug (e : Bool)
  /-- HOST_GET_OCCUPIED (44_host_interface.md R200). -/
  | hostGetOccupied
  /-- HOST_UNASSIGNED: `op` in 0x9 to 0xF (44_host_interface.md R201). -/
  | hostUnassigned (op : Nibble)
  /-- TBL_UPSERT (40_sensor_table.md R110). -/
  | tblUpsert (t : Byte) (v : Half)
  /-- TBL_FIND_BY_TYPE (40_sensor_table.md R112). -/
  | tblFindByType (t : Byte)
  /-- TBL_AT (40_sensor_table.md R114). -/
  | tblAt (a : Nibble)
  /-- TBL_OCCUPIED_COUNT (40_sensor_table.md R116). -/
  | tblOccupiedCount
  deriving DecidableEq, Repr

end Sys2Proof
end

