-- ==== Sys2Proof/Machine/Operands.lean ====
section
/-! DEFINITION. Operands.lean: byte order, the fields of a frame, and every operand form of 30_encoding.md. -/

namespace Sys2Proof.Machine

open Sys2Proof

/-- `le16(lo, hi) = lo | (hi << 8)` (00_scope.md R18, 20_memory.md R63). -/
def le16 (lo hi : Byte) : Half := hi ++ lo

/-- `lo16(v) = v[7:0]` (00_scope.md R18). -/
def lo16 (v : Half) : Byte := v.extractLsb' 0 8

/-- `hi16(v) = v[15:8]` (00_scope.md R18). -/
def hi16 (v : Half) : Byte := v.extractLsb' 8 8

/-- The command nibble, bits 7:4 of byte 1 (30_encoding.md R82). -/
def cmdOf (b : Byte) : Nibble := b.extractLsb' 4 4

/-- The address nibble, bits 3:0 of byte 1 (30_encoding.md R82). -/
def addrOf (b : Byte) : Nibble := b.extractLsb' 0 4

/-- Byte 1 of a frame: the command in the high nibble, the address in the low one (30_encoding.md R80). -/
def cmdAddr (cmd addr : Nibble) : Byte := cmd ++ addr

/-- The length byte of a request and of the DISCOVER response (30_encoding.md R80, R84). -/
def LEN4 : Byte := 0x04

/-- The length byte of the TYPE and MEASUREMENT responses (30_encoding.md R85, R86). -/
def LEN6 : Byte := 0x06

/-- The constant second payload byte of the TYPE response (43_dispatch.md R170). -/
def CONST02 : Byte := 0x02

/-- The command nibbles of the three commands (30_encoding.md R89). -/
def CMD_DISCOVER : Nibble := 0x8
/-- TYPE (30_encoding.md R89). -/
def CMD_TYPE : Nibble := 0x9
/-- MEASUREMENT (30_encoding.md R89). -/
def CMD_MEAS : Nibble := 0xA

/-- The request frame with the given fields (30_encoding.md R80, R97). -/
def requestFrame (cmd addr : Nibble) (chk : Half) : Frame :=
  { b0 := LEN4, b1 := cmdAddr cmd addr, b2 := lo16 chk, b3 := hi16 chk }

/-- A frame's bytes in wire order (30_encoding.md R80). -/
def frameBytes (f : Frame) : List Byte := [f.b0, f.b1, f.b2, f.b3]

/-- `rxChk = le16(frame[2], frame[3])`, the received checksum (30_encoding.md R83). -/
def rxChk (f : Frame) : Half := le16 f.b2 f.b3

/-- The code of the `kind` operand: INTV = 0, EXTV = 1, TEMP = 2, RPM = 3 (30_encoding.md R95). -/
def kindSelector : Kind → Byte
  | .intv => 0
  | .extv => 1
  | .temp => 2
  | .rpm  => 3

/-- The kind a selector names, `none` for a value that is not 2 bits (30_encoding.md R94, R95). -/
def kindOfSelector (b : Byte) : Option Kind :=
  if b = 0 then some .intv
  else if b = 1 then some .extv
  else if b = 2 then some .temp
  else if b = 3 then some .rpm
  else none

/-- Is the address one of those that are handled, 1 to 4 (20_memory.md R61, 43_dispatch.md R161)? -/
def addrHandled (a : Nibble) : Bool := decide (1 ≤ a.toNat) && decide (a.toNat ≤ CAP)

end Sys2Proof.Machine
end

