-- ==== Sys2Proof/Machine/Checksum.lean ====
section
/-! DEFINITION. Checksum.lean: the checksum engine (41_checksum.md) and the response frames that carry its results
(30_encoding.md R84 to R86). -/

namespace Sys2Proof.Machine

open Sys2Proof

/-- CHK2: `(0xFFFF - (b0 + b1)) mod 2^16`, the sum exact on naturals (41_checksum.md R130, 00_scope.md R18). -/
def chk2 (b0 b1 : Byte) : Half := BitVec.ofNat 16 (0xFFFF - (b0.toNat + b1.toNat))

/-- CHK4: `(0xFFFF - (b0 + b1 + b2 + b3)) mod 2^16` (41_checksum.md R131). -/
def chk4 (b0 b1 b2 b3 : Byte) : Half :=
  BitVec.ofNat 16 (0xFFFF - (b0.toNat + b1.toNat + b2.toNat + b3.toNat))

/-- CHK_OK: the expected and the received checksum of a framed request are equal as 16-bit values (41_checksum.md R133). -/
def chkOk (f : Frame) : Bool := chk2 f.b0 f.b1 == rxChk f

/-- The DISCOVER response, `b1` the request's byte 1 (30_encoding.md R84, 43_dispatch.md R165). -/
def discoverResponse (b1 : Byte) : List Byte :=
  let c := chk2 LEN4 b1
  [LEN4, b1, lo16 c, hi16 c]

/-- The six bytes `b0 .. b3` and their CHK4, low byte first (41_checksum.md R131, R135). -/
def sixByteFrame (b0 b1 b2 b3 : Byte) : List Byte :=
  let c := chk4 b0 b1 b2 b3
  [b0, b1, b2, b3, lo16 c, hi16 c]

/-- The TYPE response (30_encoding.md R85, 43_dispatch.md R169, R170). -/
def typeResponse (addr : Nibble) (t : Byte) : List Byte :=
  sixByteFrame LEN6 (cmdAddr CMD_TYPE addr) t CONST02

/-- The MEASUREMENT response (30_encoding.md R86, 43_dispatch.md R172, R173). -/
def measurementResponse (addr : Nibble) (v : Half) : List Byte :=
  sixByteFrame LEN6 (cmdAddr CMD_MEAS addr) (lo16 v) (hi16 v)

end Sys2Proof.Machine
end

