-- ==== Sys2Proof/WellFormed.lean ====
section
/-! DEFINITION. WellFormed.lean: which terms of `Instr` stand for a word of their row of spec/opcode_table.json (its
"constraint" column). A request with any checksum is well formed: a wrong one is an error the block absorbs
(42_framing.md R145), not an encoding that does not exist. -/

namespace Sys2Proof

open Sys2Proof.Machine

/-- The constraints of the rows: the command ranges of the two unhandled rows and the `op` range of HOST_UNASSIGNED
(30_encoding.md R89, R94), and for a response the address of a slot and the checksum of its own bytes
(30_encoding.md R84 to R86). -/
def Instr.wf : Instr → Bool
  | .reqDiscover _ _ => true
  | .reqType _ _ => true
  | .reqMeasurement _ _ => true
  | .reqUnhandledLow cmd _ _ => decide (cmd.toNat < 0x8)
  | .reqUnhandledHigh cmd _ _ => decide (0xB ≤ cmd.toNat)
  | .rspDiscover addr chk => addrHandled addr && (chk == chk2 LEN4 (cmdAddr CMD_DISCOVER addr))
  | .rspType addr t chk => addrHandled addr && (chk == chk4 LEN6 (cmdAddr CMD_TYPE addr) t CONST02)
  | .rspMeasurement addr v chk =>
    addrHandled addr && (chk == chk4 LEN6 (cmdAddr CMD_MEAS addr) (lo16 v) (hi16 v))
  | .hostInit _ => true
  | .hostPoll => true
  | .hostUpsert _ _ => true
  | .hostSetKind _ _ => true
  | .hostGetReqCount => true
  | .hostGetRespCount => true
  | .hostGetDiscovered => true
  | .hostSetDebug _ => true
  | .hostGetOccupied => true
  | .hostUnassigned op => decide (0x9 ≤ op.toNat)
  | .tblUpsert _ _ => true
  | .tblFindByType _ => true
  | .tblAt _ => true
  | .tblOccupiedCount => true

end Sys2Proof
end

