-- ==== Sys2Proof/Decode.lean ====
section
/-! DEFINITION. Decode.lean: the decoder of each port, total on any bytes and rejecting by name, then the encoder written
from the same encodings (30_encoding.md). The bytes of a host transaction after its selector, and of a table operation
after its, are the model's own layout (notes/assumptions/5.md): the spec gives the operands and their widths only. -/

namespace Sys2Proof

open Sys2Proof.Machine

/-- Why a byte sequence stands for no word of a port. -/
inductive Reject where
  /-- Fewer bytes than the word has. -/
  | tooShort
  /-- A request whose length byte is not 0x04 (42_framing.md R143). -/
  | badLength
  /-- A frame that is none of the three responses (30_encoding.md R84 to R86). -/
  | noResponse
  /-- A selector byte with bits above the selector's width (30_encoding.md R94, R96). -/
  | badSelector
  /-- An operand byte with bits above the operand's width (30_encoding.md R94, R95). -/
  | badOperand
  deriving DecidableEq, Repr

/-- What a decoder answers: an instruction and the bytes after it, or a rejection by name. -/
inductive Decoded where
  | ok (i : Instr) (rest : List Byte)
  | reject (why : Reject)
  deriving DecidableEq, Repr

/-- The instruction of a framed request (30_encoding.md R80 to R83, R89): the length byte, then the command nibble. -/
def decodeFrame (f : Frame) : Option Instr :=
  if f.b0 = LEN4 then
    let cmd := cmdOf f.b1
    let addr := addrOf f.b1
    if cmd = CMD_DISCOVER then some (.reqDiscover addr (rxChk f))
    else if cmd = CMD_TYPE then some (.reqType addr (rxChk f))
    else if cmd = CMD_MEAS then some (.reqMeasurement addr (rxChk f))
    else if cmd.toNat < 0x8 then some (.reqUnhandledLow cmd addr (rxChk f))
    else some (.reqUnhandledHigh cmd addr (rxChk f))
  else none

/-- Request frames: every request is 4 bytes (30_encoding.md R88). -/
def decodeRequest : List Byte → Decoded
  | b0 :: b1 :: b2 :: b3 :: rest =>
    match decodeFrame { b0 := b0, b1 := b1, b2 := b2, b3 := b3 } with
    | some i => .ok i rest
    | none   => .reject .badLength
  | _ => .reject .tooShort

/-- Response frames: 4 bytes for DISCOVER, 6 for TYPE and MEASUREMENT (30_encoding.md R84 to R86, R88). -/
def decodeResponse : List Byte → Decoded
  | b0 :: b1 :: b2 :: b3 :: rest =>
    if b0 = LEN4 ∧ cmdOf b1 = CMD_DISCOVER then .ok (.rspDiscover (addrOf b1) (le16 b2 b3)) rest
    else if b0 = LEN6 then
      match rest with
      | b4 :: b5 :: rest' =>
        if cmdOf b1 = CMD_TYPE ∧ b3 = CONST02 then .ok (.rspType (addrOf b1) b2 (le16 b4 b5)) rest'
        else if cmdOf b1 = CMD_MEAS then .ok (.rspMeasurement (addrOf b1) (le16 b2 b3) (le16 b4 b5)) rest'
        else .reject .noResponse
      | _ => .reject .tooShort
    else .reject .noResponse
  | _ => .reject .tooShort

/-- A natural number operand, seven bits a byte, least significant first, bit 7 set on every byte but the last
(notes/assumptions/5.md). -/
def readNat : List Byte → Option (Nat × List Byte)
  | [] => none
  | b :: bs =>
    if b.toNat < 128 then some (b.toNat, bs)
    else
      match readNat bs with
      | some (n, rest) => some (b.toNat - 128 + 128 * n, rest)
      | none => none

/-- An integer as a natural: even for 0, 1, 2, …, odd for -1, -2, … (notes/assumptions/5.md). -/
def intCode : Int → Nat
  | .ofNat n   => 2 * n
  | .negSucc n => 2 * n + 1

/-- The integer that `intCode` names. -/
def intOfCode (n : Nat) : Int := if n % 2 = 0 then .ofNat (n / 2) else .negSucc (n / 2)

/-- A rational operand: its numerator, then its denominator less one (notes/assumptions/5.md). -/
def readRat (bs : List Byte) : Option (Rat × List Byte) :=
  match readNat bs with
  | some (n, bs') =>
    match readNat bs' with
    | some (d, rest) => some (mkRat (intOfCode n) (d + 1), rest)
    | none => none
  | none => none

/-- A reading operand: a byte 0 and a rational, or a byte 1 and the number of a named reading (notes/assumptions/5.md). -/
def decodeReading (mk : Reading → Instr) : List Byte → Decoded
  | tag :: bs =>
    if tag = 0 then
      match readRat bs with
      | some (q, rest) => .ok (mk (.rational q)) rest
      | none => .reject .tooShort
    else if tag = 1 then
      match readNat bs with
      | some (k, rest) => .ok (mk (.named k)) rest
      | none => .reject .tooShort
    else .reject .badOperand
  | [] => .reject .tooShort

/-- Operands of an upsert: `t`, then `v` low byte first (30_encoding.md R94, 20_memory.md R63). -/
def decodeUpsert (mk : Byte → Half → Instr) : List Byte → Decoded
  | t :: v0 :: v1 :: rest => .ok (mk t (le16 v0 v1)) rest
  | _ => .reject .tooShort

/-- Host transactions by their selector `op`, bits 3:0 of the first byte (30_encoding.md R94). -/
def decodeHostOp (op : Nibble) (bs : List Byte) : Decoded :=
  match op.toNat with
  | 0x0 =>
    match readNat bs with
    | some (T, rest) => .ok (.hostInit T) rest
    | none => .reject .tooShort
  | 0x1 => .ok .hostPoll bs
  | 0x2 => decodeUpsert .hostUpsert bs
  | 0x3 =>
    match bs with
    | k :: bs' =>
      match kindOfSelector k with
      | some kind => decodeReading (.hostSetKind kind) bs'
      | none => .reject .badOperand
    | [] => .reject .tooShort
  | 0x4 => .ok .hostGetReqCount bs
  | 0x5 => .ok .hostGetRespCount bs
  | 0x6 => .ok .hostGetDiscovered bs
  | 0x7 =>
    match bs with
    | e :: rest =>
      if e = 0 then .ok (.hostSetDebug false) rest
      else if e = 1 then .ok (.hostSetDebug true) rest
      else .reject .badOperand
    | [] => .reject .tooShort
  | 0x8 => .ok .hostGetOccupied bs
  | _ => .ok (.hostUnassigned op) bs

/-- A host transaction: its selector byte, then its operands (30_encoding.md R94). Bytes after the operands are left over
and answered with the instruction (notes/assumptions/5.md). -/
def decodeHost : List Byte → Decoded
  | b :: bs => if cmdOf b = 0 then decodeHostOp (addrOf b) bs else .reject .badSelector
  | [] => .reject .tooShort

/-- A table operation: its selector `tsel`, bits 1:0 of the first byte, then its operands (30_encoding.md R96). Bytes after
the operands are left over and answered with the instruction (notes/assumptions/5.md). -/
def decodeTable : List Byte → Decoded
  | b :: bs =>
    match b.toNat with
    | 0 => decodeUpsert .tblUpsert bs
    | 1 =>
      match bs with
      | t :: rest => .ok (.tblFindByType t) rest
      | [] => .reject .tooShort
    | 2 =>
      match bs with
      | a :: rest => if cmdOf a = 0 then .ok (.tblAt (addrOf a)) rest else .reject .badOperand
      | [] => .reject .tooShort
    | 3 => .ok .tblOccupiedCount bs
    | _ => .reject .badSelector
  | [] => .reject .tooShort

/-- The decoder of each port. -/
def decode : Port → List Byte → Decoded
  | .request  => decodeRequest
  | .response => decodeResponse
  | .host     => decodeHost
  | .table    => decodeTable

/-- The port an instruction's words stand at. -/
def Instr.port : Instr → Port
  | .reqDiscover _ _ | .reqType _ _ | .reqMeasurement _ _ | .reqUnhandledLow _ _ _ | .reqUnhandledHigh _ _ _ => .request
  | .rspDiscover _ _ | .rspType _ _ _ | .rspMeasurement _ _ _ => .response
  | .hostInit _ | .hostPoll | .hostUpsert _ _ | .hostSetKind _ _ | .hostGetReqCount | .hostGetRespCount
  | .hostGetDiscovered | .hostSetDebug _ | .hostGetOccupied | .hostUnassigned _ => .host
  | .tblUpsert _ _ | .tblFindByType _ | .tblAt _ | .tblOccupiedCount => .table

/-- `writeNat` with fuel: `fuel` bytes at most before the last one. -/
def writeNatFuel : Nat → Nat → List Byte
  | 0, n => [BitVec.ofNat 8 n]
  | fuel + 1, n =>
    if n < 128 then [BitVec.ofNat 8 n]
    else BitVec.ofNat 8 (128 + n % 128) :: writeNatFuel fuel (n / 128)

/-- The bytes that `readNat` reads a number from. -/
def writeNat (n : Nat) : List Byte := writeNatFuel n n

/-- The bytes that `readRat` reads a rational from. -/
def writeRat (x : Rat) : List Byte := writeNat (intCode x.num) ++ writeNat (x.den - 1)

/-- The bytes that `decodeReading` reads a reading from. -/
def encodeReading : Reading → List Byte
  | .rational q => 0 :: writeRat q
  | .named k => 1 :: writeNat k

/-- The bytes of an upsert's operands. -/
def encodeUpsert (t : Byte) (v : Half) : List Byte := [t, lo16 v, hi16 v]

/-- The words of an instruction, in wire order (30_encoding.md R80, R84 to R86, R94 to R96). -/
def encode : Instr → List Byte
  | .reqDiscover addr chk => frameBytes (requestFrame CMD_DISCOVER addr chk)
  | .reqType addr chk => frameBytes (requestFrame CMD_TYPE addr chk)
  | .reqMeasurement addr chk => frameBytes (requestFrame CMD_MEAS addr chk)
  | .reqUnhandledLow cmd addr chk => frameBytes (requestFrame cmd addr chk)
  | .reqUnhandledHigh cmd addr chk => frameBytes (requestFrame cmd addr chk)
  | .rspDiscover addr chk => [LEN4, cmdAddr CMD_DISCOVER addr, lo16 chk, hi16 chk]
  | .rspType addr t chk => [LEN6, cmdAddr CMD_TYPE addr, t, CONST02, lo16 chk, hi16 chk]
  | .rspMeasurement addr v chk => [LEN6, cmdAddr CMD_MEAS addr, lo16 v, hi16 v, lo16 chk, hi16 chk]
  | .hostInit T => 0x00 :: writeNat T
  | .hostPoll => [0x01]
  | .hostUpsert t v => 0x02 :: encodeUpsert t v
  | .hostSetKind k x => 0x03 :: kindSelector k :: encodeReading x
  | .hostGetReqCount => [0x04]
  | .hostGetRespCount => [0x05]
  | .hostGetDiscovered => [0x06]
  | .hostSetDebug e => [0x07, if e then 1 else 0]
  | .hostGetOccupied => [0x08]
  | .hostUnassigned op => [cmdAddr 0 op]
  | .tblUpsert t v => 0x00 :: encodeUpsert t v
  | .tblFindByType t => [0x01, t]
  | .tblAt a => [0x02, cmdAddr 0 a]
  | .tblOccupiedCount => [0x03]

/-- The port a word of spec/opcode_table.json is read at, by the number of bits its row has: 48 (or the 40 of its
"match") for the two six-byte responses, 32 for a request, 8 (or the 4 of its selector) for a host transaction, the 2 bits
of `tsel` for a table operation. Rows with equal numbers of bits and equal fixed bits cannot be told apart by a word alone
(NOTES.md): 32 bits are read as a request and 8 bits as a host transaction. -/
def tablePort (nbits : Nat) : Port :=
  if nbits ≤ 2 then .table
  else if nbits ≤ 8 then .host
  else if nbits ≤ 32 then .request
  else .response

/-- The bytes of a word of spec/opcode_table.json, first byte in bits 7:0, every bit above `nbits` zero (30_encoding.md
R81). Sixteen bytes are more than any row's word with its operands zero has. -/
def tableBytes (nbits w : Nat) : List Byte :=
  (List.range 16).map fun k => BitVec.ofNat 8 ((w % 2 ^ nbits) >>> (8 * k))

/-- The instruction the decoder reads from a word of spec/opcode_table.json. -/
def decodeTableWord (nbits w : Nat) : Option Instr :=
  match decode (tablePort nbits) (tableBytes nbits w) with
  | .ok i _ => some i
  | .reject _ => none

end Sys2Proof
end

