-- ==== Sys2Proof/Config.lean ====
section
/-! DEFINITION. Config.lean: what the spec leaves OPEN and the model takes as an argument (00_scope.md R12 to R14;
92_eei_decisions.md D4, D20, D21). Every constant here is opaque and has no body: no proof can see its value, so a claim
that mentions it holds for every value. -/

namespace Sys2Proof

/-- A real number in its one form: a rational is written as such, any other real with the fact that it is irrational. So
a real number that is rational can be computed with, and `RealNumber.toReal` loses nothing either way
(`Laws.RealNumber`: it is a bijection). -/
inductive RealNumber where
  /-- A rational number. -/
  | rational (q : Rat)
  /-- Any other real number. -/
  | irrational (x : ℝ) (h : Irrational x)
  deriving Inhabited

/-- How the set-by-kind operation treats a converted integer outside 0 to 65535: the parameter `CONV_RANGE` either names
the 16-bit value to store, or is the fault choice (00_scope.md R14, 44_host_interface.md R195, 92_eei_decisions.md D21). -/
inductive RangeChoice where
  /-- A value is stored in place of the one out of range. -/
  | store (v : Half)
  /-- The transaction ends in Fault(CONV_RANGE). -/
  | fault
  deriving DecidableEq, Repr, Inhabited

/-- The OPEN parameters, as far as they are plain data: a state carries them, so that every statement over all states
quantifies over them and a test can set them. No step writes them.
`cntW` is `CNT_W`, the width of both counters (00_scope.md R12). `kindMap` numbers which of the six admissible maps
`KIND_CODE` is (00_scope.md R13; the six maps stand in `Machine.kindCode`). `rounding` and `range` are the points at which
the functions `CONV_ROUND` and `CONV_RANGE` are known, for `CONV_ROUND` rational ones (00_scope.md R14); everywhere else,
and so at every point right after reset, they are the opaque functions below (notes/assumptions/6.md). -/
structure Params where
  cntW     : Nat
  kindMap  : Fin 6
  rounding : List (Rat × Int)
  range    : List (Int × RangeChoice)
  deriving DecidableEq, Repr

/-- `CNT_W - 1`: `CNT_W` is some positive natural, not stated by the source (00_scope.md R12, 91_not_in_source.md N3). -/
opaque Config.cntWLessOne : Nat

/-- Which of the six admissible maps `KIND_CODE` is (00_scope.md R13, 92_eei_decisions.md D20). -/
opaque Config.kindMap : Fin 6

/-- `CONV_ROUND : real -> integer` where no point is known, unconstrained (00_scope.md R14, 92_eei_decisions.md D21). -/
opaque Config.convRound : RealNumber → Int

/-- The real number that the `k`-th named reading is, unconstrained: whatever real numbers the readings of a run are, some
value of this constant names them (notes/assumptions/6.md). -/
opaque Config.reading : Nat → RealNumber

/-- `CONV_RANGE` where no point is known, unconstrained (00_scope.md R14, 92_eei_decisions.md D21). -/
opaque Config.convRange : Int → RangeChoice

/-- The parameters of the machine that `State.reset` describes. -/
def Config.params : Params :=
  { cntW := Config.cntWLessOne + 1, kindMap := Config.kindMap, rounding := [], range := [] }

end Sys2Proof
end

