-- ==== Sys2Proof/Machine/State.lean ====
section
/-! DEFINITION. State.lean: everything the spec gives one instance of the block (10_state.md), the other instances and the
transports beside it, the acts of the host and the receiver still to come, and the machine right after reset. -/

namespace Sys2Proof.Machine

open Sys2Proof

/-- The reasons a host transaction, or the machine, stops without a meaning from the source (60_exceptions.md R226). -/
inductive Fault where
  /-- `UNBOUND`: raised by POLL, and by the request and response words that only a POLL reaches, on an instance with
  `bound = 0` (42_framing.md R153). Safe: the source gives it no meaning. -/
  | unbound
  /-- `REBIND`: raised by INIT on an instance with `bound = 1` (44_host_interface.md R190). Safe. -/
  | rebind
  /-- `CONV_RANGE`: raised by SET_KIND when the converted value is outside 0 to 65535 and the parameter `CONV_RANGE` is
  the fault choice (44_host_interface.md R195). Safe. -/
  | convRange
  /-- Raised by the step, by no instruction: a transaction is presented to an instance with a mark set, which takes no
  further transaction (10_state.md R52, 60_exceptions.md R226). The model has no move there. Safe. -/
  | quiescent
  deriving DecidableEq, Repr

/-- Why a byte sequence presented at a port, or a transaction, has no meaning. -/
inductive Refusal where
  /-- An instruction the model gives no meaning yet: raised by `exec` alone. Safe. -/
  | notModelled (mnemonic : String)
  /-- `UNASSIGNED_OP`: raised by a host transaction with `op` in 0x9 to 0xF (44_host_interface.md R201). Safe. -/
  | unassignedOp
  /-- `SHARED_TRANSPORT`: raised by INIT of a transport another instance is bound to (60_exceptions.md R243). Safe. -/
  | sharedTransport
  /-- Raised by the step, by no instruction: the bytes at the port are no word of it, in the model's own layout of
  operands (notes/assumptions/5.md). Safe. -/
  | malformed
  deriving DecidableEq, Repr

/-- What an occupied slot holds (10_state.md R30). -/
structure Slot where
  type  : Byte
  value : Half
  deriving DecidableEq, Repr

/-- The Sensor Table: four slots. An unoccupied slot holds nothing, so `slot[i].occupied` is `isSome` of slot `i`
(10_state.md R30, R34). -/
abbrev Table := Vector (Option Slot) CAP

/-- The engine's state machine (10_state.md R37). -/
inductive Fsm where
  | idle
  | processing
  deriving DecidableEq, Repr

/-- The diagnostic events and their payloads (60_exceptions.md R241). -/
inductive DiagEvent where
  | frameSeen (f : Frame)
  | badLength (f : Frame)
  | badChecksum (f : Frame)
  | addrIgnored (f : Frame)
  | cmdIgnored (f : Frame)
  | noSensor (f : Frame)
  | responseSent (r : List Byte)
  | capacityExceeded (t : Byte) (v : Half)
  deriving DecidableEq, Repr

/-- What a transaction, or a table operation, returns to its caller (30_encoding.md R94, 60_exceptions.md R225). -/
inductive Result where
  /-- Ok, with no result: INIT, POLL, SET_DEBUG. -/
  | done
  /-- `applied` of UPSERT and SET_KIND (40_sensor_table.md R110). -/
  | applied (b : Bool)
  /-- `reqCount` (44_host_interface.md R196). -/
  | reqCount (n : Nat)
  /-- `respCount` (44_host_interface.md R197). -/
  | respCount (n : Nat)
  /-- `discovered` (44_host_interface.md R198). -/
  | discovered (b : Bool)
  /-- The occupied count, 3 bits (44_host_interface.md R200, 40_sensor_table.md R116). -/
  | occupied (n : BitVec 3)
  /-- FIND_BY_TYPE's slot index, `none` for NOTFOUND (40_sensor_table.md R112). -/
  | found (i : Option (Fin CAP))
  /-- AT's slot index, `none` for ABSENT (40_sensor_table.md R114). -/
  | slotAt (i : Option (Fin CAP))
  /-- The transaction ended in Fault (60_exceptions.md R226). -/
  | faulted (r : Fault)
  /-- The transaction ended in Refused (60_exceptions.md R226). -/
  | refused (r : Refusal)
  deriving DecidableEq, Repr

/-- A transport's receive queue `RX`, oldest byte first, and transmit log `TX`, in write order (10_state.md R46). -/
structure Wire where
  rx : List Byte
  tx : List Byte
  deriving DecidableEq, Repr

/-- What the host and the receiver do next (00_scope.md R16, 60_exceptions.md R238). The engine has no act of its own: it
acts inside a host transaction and nowhere else, and so does everything at the block's internal ports
(30_encoding.md R96). -/
inductive Move where
  /-- The host presents a transaction, as bytes, to the instance in hand; `arriving` are the bytes the receiver appends
  at the one point inside a POLL where it can (42_framing.md R141). -/
  | host (bytes : List Byte) (arriving : List Byte)
  /-- Between transactions the receiver appends bytes to the `RX` of transport `T` (60_exceptions.md R238). -/
  | receiver (T : Nat) (bytes : List Byte)
  /-- The host turns to the next instance (60_exceptions.md R243). -/
  | turn
  /-- The host constructs a further instance and turns to it (10_state.md R50, 60_exceptions.md R243). -/
  | construct
  /-- A restart: the instance in hand is constructed anew and its predecessor is gone (10_state.md R50,
  70_reset_and_hazards.md R252). -/
  | restart
  deriving DecidableEq, Repr

/-- One instance of the block: every piece of state of 10_state.md, once for each instance (R51). `bound` is
`transport.isSome` (R43). `results` is the model's own record of what the instance's transactions returned
(70_reset_and_hazards.md R264), oldest first: no rule reads it back. -/
structure Block where
  /-- `slot[0..3]` (10_state.md R30). -/
  slots      : Table
  /-- The request counter, `CNT_W` bits (10_state.md R39). -/
  reqCount   : Nat
  /-- The response counter, `CNT_W` bits (10_state.md R40). -/
  respCount  : Nat
  /-- The discovered flag (10_state.md R41). -/
  discovered : Bool
  /-- The debug toggle (10_state.md R42). -/
  debugEn    : Bool
  /-- `transport`, holding no value while `bound = 0` (10_state.md R43). -/
  transport  : Option Nat
  /-- The engine's state machine (10_state.md R37). -/
  fsm        : Fsm
  /-- The frame buffer, there only for the duration of one validate-and-dispatch cycle (10_state.md R38). -/
  frame      : Option Frame
  /-- The mark a transaction that ends in Fault sets (10_state.md R52). -/
  faulted    : Bool
  /-- The mark a transaction that ends in Refused sets (10_state.md R52). -/
  refused    : Bool
  /-- `DIAG`, the events offered to the sink, oldest first (10_state.md R47). -/
  diag       : List DiagEvent
  /-- The results returned, oldest first (70_reset_and_hazards.md R264). -/
  results    : List Result
  deriving DecidableEq, Repr

/-- An instance right after its construction (10_state.md R48, R50). -/
def Block.reset : Block where
  slots      := #v[none, none, none, none]
  reqCount   := 0
  respCount  := 0
  discovered := false
  debugEn    := false
  transport  := none
  fsm        := .idle
  frame      := none
  faulted    := false
  refused    := false
  diag       := []
  results    := []

/-- The machine: the instance in hand (the fields of `Block`), and what stands beside it. -/
structure State extends Block where
  /-- The other instances (60_exceptions.md R243). -/
  peers    : List Block
  /-- The transports by their identity (10_state.md R46, 60_exceptions.md R235), identities rising, none listed whose two
  queues are empty. -/
  wires    : List (Nat × Wire)
  /-- The receiver's bytes on their way into `RX` during the present transaction (42_framing.md R141). -/
  arriving : List Byte
  /-- What the host and the receiver do next, first act first (60_exceptions.md R238). -/
  agenda   : List Move
  /-- The OPEN parameters that are plain data (00_scope.md R12, R13); no step writes them. -/
  params   : Params
  deriving DecidableEq, Repr

/-- The machine right after reset: one instance just constructed (10_state.md R48), every transport's queues empty and
nothing to do yet (notes/assumptions/2.md, notes/assumptions/4.md). -/
def State.reset : State where
  toBlock  := Block.reset
  peers    := []
  wires    := []
  arriving := []
  agenda   := []
  params   := Config.params

end Sys2Proof.Machine
end

