-- ==== Sys2Proof/Machine/Flags.lean ====
section
/-! DEFINITION. Flags.lean: the flags and counters of the block (10_state.md R39 to R45) and the one operation that writes
each. The block has no condition codes (R45). -/

namespace Sys2Proof.Machine

open Sys2Proof

/-- `bound` (10_state.md R43). -/
def Block.bound (b : Block) : Bool := b.transport.isSome

/-- Is either of the two marks set (10_state.md R52)? -/
def Block.marked (b : Block) : Bool := b.faulted || b.refused

/-- `slot[i].occupied` (10_state.md R30). -/
def occupied (t : Table) (i : Fin CAP) : Bool := t[i].isSome

/-- A counter's next value, `(n + 1) mod 2^CNT_W` (43_dispatch.md R160, R175). -/
def nextCount (p : Params) (n : Nat) : Nat := (n + 1) % 2 ^ p.cntW

/-- `reqCount <- (reqCount + 1) mod 2^CNT_W` (43_dispatch.md R160). -/
def State.countRequest (s : State) : State := { s with reqCount := nextCount s.params s.reqCount }

/-- `respCount <- (respCount + 1) mod 2^CNT_W` (43_dispatch.md R175). -/
def State.countResponse (s : State) : State := { s with respCount := nextCount s.params s.respCount }

/-- `discovered <- 1` (43_dispatch.md R166). -/
def State.setDiscovered (s : State) : State := { s with discovered := true }

/-- `debugEn <- e` (44_host_interface.md R199). -/
def State.setDebug (e : Bool) (s : State) : State := { s with debugEn := e }

end Sys2Proof.Machine
end

