-- ==== Sys2Proof/Machine/Ops.lean ====
section
/-! DEFINITION. Ops.lean: the shared operations: the transport's four primitives (60_exceptions.md R236), diagnostics
(R240), the Sensor Table's four operations (40_sensor_table.md), EMIT (43_dispatch.md R164), the beginning and end of the
handling of a frame (42_framing.md R140), and the marks that a fault and a refusal leave (60_exceptions.md R226). -/

namespace Sys2Proof

/-! ## Real numbers -/

/-- The exact sum of a real number and a rational. -/
def RealNumber.plus (x : RealNumber) (q : Rat) : RealNumber :=
  match x with
  | .rational p => .rational (p + q)
  | .irrational x h => .irrational (x + q) (h.add_ratCast q)

/-- The exact product of a real number and a rational other than 0. -/
def RealNumber.times (x : RealNumber) (q : Rat) (hq : q ≠ 0) : RealNumber :=
  match x with
  | .rational p => .rational (p * q)
  | .irrational x h => .irrational (x * q) (h.mul_ratCast hq)

end Sys2Proof

namespace Sys2Proof.Machine

open Sys2Proof

/-! ## Transports -/

/-- A transport with nothing received and nothing written: what an unlisted identity has. -/
def Wire.empty : Wire := { rx := [], tx := [] }

/-- The transport of an identity. -/
def wireGet : List (Nat × Wire) → Nat → Wire
  | [], _ => Wire.empty
  | (k, w) :: rest, T => if k = T then w else wireGet rest T

/-- Insert a transport before the first one with a higher identity. -/
def wireInsert (T : Nat) (w : Wire) : List (Nat × Wire) → List (Nat × Wire)
  | [] => [(T, w)]
  | (k, v) :: rest => if T < k then (T, w) :: (k, v) :: rest else (k, v) :: wireInsert T w rest

/-- Replace the transport of an identity, keeping the list canonical. -/
def wirePut (l : List (Nat × Wire)) (T : Nat) (w : Wire) : List (Nat × Wire) :=
  let others := l.filter fun e => e.1 != T
  if w = Wire.empty then others else wireInsert T w others

/-- The canonical form: identities strictly rising, no entry equal to what an unlisted identity has. -/
def wiresWf : List (Nat × Wire) → Bool
  | [] => true
  | (k, w) :: rest => (w != Wire.empty) && rest.all (fun e => decide (k < e.1)) && wiresWf rest

/-- `RX` of transport `T` (10_state.md R46). -/
def State.rx (s : State) (T : Nat) : List Byte := (wireGet s.wires T).rx

/-- `TX` of transport `T` (10_state.md R46). -/
def State.tx (s : State) (T : Nat) : List Byte := (wireGet s.wires T).tx

/-- Write `RX` of transport `T`. -/
def State.setRx (T : Nat) (bs : List Byte) (s : State) : State :=
  { s with wires := wirePut s.wires T { wireGet s.wires T with rx := bs } }

/-- `RxAvail()` (60_exceptions.md R236). -/
def State.rxAvail (s : State) (T : Nat) : Nat := (s.rx T).length

/-- `RxRead()`: the oldest byte and the state without it, `none` on an empty `RX` (60_exceptions.md R236). -/
def State.rxRead (s : State) (T : Nat) : Option (Byte × State) :=
  match s.rx T with
  | [] => none
  | b :: rest => some (b, s.setRx T rest)

/-- `TxWrite(r)`: the whole of `r` is appended to `TX` at once (60_exceptions.md R236, 20_memory.md R67). -/
def State.txWrite (T : Nat) (r : List Byte) (s : State) : State :=
  { s with wires := wirePut s.wires T { wireGet s.wires T with tx := s.tx T ++ r } }

/-- `RxDrain()`: every received byte is discarded (60_exceptions.md R236). -/
def State.rxDrain (T : Nat) (s : State) : State := s.setRx T []

/-- The receiver appends bytes to `RX` (60_exceptions.md R238, 20_memory.md R71). -/
def State.rxAppend (T : Nat) (bs : List Byte) (s : State) : State := s.setRx T (s.rx T ++ bs)

/-- The receiver's bytes that arrive inside the present transaction reach `RX` (42_framing.md R141). -/
def State.arrive (T : Nat) (s : State) : State :=
  { s.rxAppend T s.arriving with arriving := [] }

/-! ## Diagnostics and results -/

/-- `Diag(e)`: the event is offered to the sink when `debugEn = 1` (60_exceptions.md R240). -/
def State.offer (e : DiagEvent) (s : State) : State :=
  if s.debugEn then { s with diag := s.diag ++ [e] } else s

/-- `return r` ends a transaction with result `r` (00_scope.md R19). -/
def State.answer (r : Result) (s : State) : State := { s with results := s.results ++ [r] }

/-! ## The Sensor Table -/

/-- The slots in ascending index order. -/
def slotOrder : List (Fin CAP) := [0, 1, 2, 3]

/-- Does slot `i` hold type `t`? An unoccupied slot never matches (40_sensor_table.md R112). -/
def holdsType (table : Table) (t : Byte) (i : Fin CAP) : Bool :=
  match table[i] with
  | some slot => slot.type == t
  | none => false

/-- FIND_BY_TYPE: the first slot holding the type, `none` for NOTFOUND (40_sensor_table.md R112). -/
def findByType (table : Table) (t : Byte) : Option (Fin CAP) := slotOrder.find? (holdsType table t)

/-- The first free slot in ascending index order (40_sensor_table.md R110). -/
def firstFree (table : Table) : Option (Fin CAP) := slotOrder.find? fun i => !occupied table i

/-- The slot index of a handled address, `address - 1` (10_state.md R31). -/
def slotOfAddr (a : Nibble) : Option (Fin CAP) :=
  if h : 1 ≤ a.toNat ∧ a.toNat ≤ CAP then some ⟨a.toNat - 1, Nat.sub_one_lt_of_le h.1 h.2⟩ else none

/-- AT: the occupied slot behind a protocol address, `none` for ABSENT (40_sensor_table.md R114). -/
def slotAt (table : Table) (a : Nibble) : Option (Fin CAP) :=
  match slotOfAddr a with
  | some i => if occupied table i then some i else none
  | none => none

/-- OCCUPIED_COUNT (40_sensor_table.md R116). -/
def occupiedCount (table : Table) : Nat := (slotOrder.filter (occupied table)).length

/-- Overwrite the value of an occupied slot; its type stays (40_sensor_table.md R110). -/
def setValue (table : Table) (i : Fin CAP) (v : Half) : Table :=
  match table[i] with
  | some slot => table.set i (some { slot with value := v })
  | none => table

/-- UPSERT: the state after it and `applied` (40_sensor_table.md R110, R117). -/
def upsert (t : Byte) (v : Half) (s : State) : State × Bool :=
  match findByType s.slots t with
  | some i => ({ s with slots := setValue s.slots i v }, true)
  | none =>
    match firstFree s.slots with
    | some j => ({ s with slots := s.slots.set j (some { type := t, value := v }) }, true)
    | none => (s.offer (.capacityExceeded t v), false)

/-- An upsert whose `applied` is returned to the caller (40_sensor_table.md R110, R117). -/
def upsertAnswered (t : Byte) (v : Half) (s : State) : State :=
  let r := upsert t v s
  r.1.answer (.applied r.2)

/-! ## Set by kind -/

/-- The map `KIND_CODE` that a number below six names: INTV is 0x00 and EXTV, TEMP, RPM are the six arrangements of
0x01, 0x02, 0x03 (00_scope.md R13, 92_eei_decisions.md D20). -/
def kindCode (m : Fin 6) : Kind → Byte
  | .intv => 0x00
  | .extv => match m with
    | 0 => 0x01 | 1 => 0x01 | 2 => 0x02 | 3 => 0x02 | 4 => 0x03 | 5 => 0x03
  | .temp => match m with
    | 0 => 0x02 | 1 => 0x03 | 2 => 0x01 | 3 => 0x03 | 4 => 0x01 | 5 => 0x02
  | .rpm => match m with
    | 0 => 0x03 | 1 => 0x02 | 2 => 0x03 | 3 => 0x01 | 4 => 0x02 | 5 => 0x01

/-- The real number a reading is (44_host_interface.md R195). -/
def readingValue : Reading → RealNumber
  | .rational q => .rational q
  | .named k => Config.reading k

/-- The exact product of the set-by-kind conversion (44_host_interface.md R194). -/
def convert (k : Kind) (x : RealNumber) : RealNumber :=
  match k with
  | .intv => x.times 100 (by decide)
  | .extv => x.times 100 (by decide)
  | .temp => (x.plus 40).times 10 (by decide)
  | .rpm  => x

/-- `CONV_ROUND` (00_scope.md R14). -/
def convRound (p : Params) (y : RealNumber) : Int :=
  match y with
  | .rational q => (p.rounding.lookup q).getD (Config.convRound y)
  | .irrational _ _ => Config.convRound y

/-- `CONV_RANGE` (00_scope.md R14). -/
def convRange (p : Params) (n : Int) : RangeChoice := (p.range.lookup n).getD (Config.convRange n)

/-- What SET_KIND stores: the rounded product where it is a 16-bit value, else the choice of `CONV_RANGE`
(44_host_interface.md R195). -/
def converted (p : Params) (k : Kind) (x : Reading) : RangeChoice :=
  let n := convRound p (convert k (readingValue x))
  if n < 0 ∨ n > 0xFFFF then convRange p n else .store (BitVec.ofNat 16 n.toNat)

/-! ## Responses -/

/-- EMIT: the one way a response leaves the block (43_dispatch.md R164). -/
def State.emit (T : Nat) (r : List Byte) (s : State) : State :=
  (s.txWrite T r).countResponse.offer (.responseSent r)

/-- A response word on its own: EMIT of the frame on the bound transport (43_dispatch.md R164); there is none to write to
while `bound = 0` (42_framing.md R153). -/
def emitBound (r : List Byte) (s : State) : Host.Outcome State Fault Refusal :=
  match s.transport with
  | some T => .next (s.emit T r)
  | none => .fault .unbound

/-! ## The handling of a framed packet -/

/-- The beginning: the frame is in the buffer, `fsm <- PROCESSING`, `Diag(FRAME_SEEN)`; and the receiver's bytes that
arrive inside the POLL arrive (42_framing.md R140, R141, R142). -/
def State.beginFrame (T : Nat) (f : Frame) (s : State) : State :=
  State.arrive T ({ s with frame := some f, fsm := .processing }.offer (.frameSeen f))

/-- The end: `RxDrain()`, then `fsm <- IDLE`; the frame buffer is gone (42_framing.md R147, R148, 10_state.md R38). -/
def State.endFrame (T : Nat) (s : State) : State :=
  { s.rxDrain T with fsm := .idle, frame := none }

/-- The checksum check before the dispatch phase (42_framing.md R145, R140). -/
def ifChecksumOk (f : Frame) (dispatched : State → State) (s : State) : State :=
  if chkOk f then dispatched s else s.offer (.badChecksum f)

/-- DISPATCH up to the command: the request is counted, then the address is filtered (43_dispatch.md R160, R161). -/
def dispatch (f : Frame) (command : State → State) (s : State) : State :=
  let s' := s.countRequest
  if addrHandled (addrOf f.b1) then command s' else s'.offer (.addrIgnored f)

/-- A command that answers from the addressed slot, or is silent when the slot is unoccupied (43_dispatch.md R162). -/
def withSlot (f : Frame) (respond : Slot → State → State) (s : State) : State :=
  match slotAt s.slots (addrOf f.b1) with
  | some i =>
    match s.slots[i] with
    | some slot => respond slot s
    | none => s.offer (.noSensor f)
  | none => s.offer (.noSensor f)

/-- DO_DISCOVER (43_dispatch.md R165, R166). -/
def doDiscover (T : Nat) (f : Frame) : State → State :=
  withSlot f fun _ s => (s.emit T (discoverResponse f.b1)).setDiscovered

/-- DO_TYPE (43_dispatch.md R169). -/
def doType (T : Nat) (f : Frame) : State → State :=
  withSlot f fun slot s => s.emit T (typeResponse (addrOf f.b1) slot.type)

/-- DO_MEAS (43_dispatch.md R172). -/
def doMeasurement (T : Nat) (f : Frame) : State → State :=
  withSlot f fun slot s => s.emit T (measurementResponse (addrOf f.b1) slot.value)

/-- A command nibble outside 0x8, 0x9, 0xA (43_dispatch.md R176). -/
def ignoreCommand (f : Frame) (s : State) : State := s.offer (.cmdIgnored f)

/-- The whole handling of a frame whose length byte is 0x04, from the buffer to IDLE, by a POLL of a bound instance
(42_framing.md R140). -/
def serveRequest (f : Frame) (command : Nat → State → State) (s : State) : Host.Outcome State Fault Refusal :=
  match s.transport with
  | some T => .next ((ifChecksumOk f (dispatch f (command T)) (s.beginFrame T f)).endFrame T)
  | none => .fault .unbound

/-- The whole handling of a frame with another length byte (42_framing.md R143). -/
def dropBadLength (T : Nat) (f : Frame) (s : State) : State :=
  ((s.beginFrame T f).offer (.badLength f)).endFrame T

/-- The four oldest bytes of `RX`, by four `RxRead`s; `none` when `RX` holds fewer than four (42_framing.md R142). -/
def State.takeFrame (T : Nat) (s : State) : Option (Frame × State) :=
  if s.rxAvail T < 4 then none
  else
    match s.rxRead T with
    | none => none
    | some (b0, s1) =>
      match s1.rxRead T with
      | none => none
      | some (b1, s2) =>
        match s2.rxRead T with
        | none => none
        | some (b2, s3) =>
          match s3.rxRead T with
          | none => none
          | some (b3, s4) => some ({ b0 := b0, b1 := b1, b2 := b2, b3 := b3 }, s4)

/-! ## Instances, marks, and the end of a transaction -/

/-- Is transport `T` bound to another instance (60_exceptions.md R243)? -/
def State.takenByPeer (s : State) (T : Nat) : Bool := s.peers.any fun b => b.transport == some T

/-- The host turns to the next instance. -/
def State.turnToNext (s : State) : State :=
  match s.peers with
  | [] => s
  | b :: rest => { s with toBlock := b, peers := rest ++ [s.toBlock] }

/-- The host constructs a further instance and turns to it (10_state.md R50). -/
def State.constructNew (s : State) : State :=
  { s with toBlock := Block.reset, peers := s.toBlock :: s.peers }

/-- The instance in hand is constructed anew (10_state.md R50, 70_reset_and_hazards.md R252). -/
def State.restartBlock (s : State) : State := { s with toBlock := Block.reset }

/-- A transaction that ended in Fault: every state element as before it, and the sticky mark (60_exceptions.md R226). -/
def State.markFaulted (r : Fault) (s : State) : State := { s with faulted := true }.answer (.faulted r)

/-- A transaction that ended in Refused: every state element as before it, and the sticky mark (60_exceptions.md R226). -/
def State.markRefused (r : Refusal) (s : State) : State := { s with refused := true }.answer (.refused r)

/-- Bytes still on their way when a transaction ends reach the bound transport's `RX` then, before anything else happens
(notes/assumptions/8.md). -/
def State.settle (s : State) : State :=
  match s.transport with
  | some T => s.arrive T
  | none => { s with arriving := [] }

/-- What the machine is after a transaction presented in state `s` ended with an outcome (60_exceptions.md R225, R226). -/
def State.conclude (s : State) : Host.Outcome State Fault Refusal → State
  | .next s' => s'.settle
  | .fault r => (s.markFaulted r).settle
  | .refused r => (s.markRefused r).settle

end Sys2Proof.Machine
end

