-- ==== Sys2Proof/Machine/Request.lean ====
section
/-! DEFINITION. Request.lean: the request words. The meaning of a request is what the POLL that frames it does once its
four bytes are read, from `fsm <- PROCESSING` to `fsm <- IDLE` (42_framing.md R140, 43_dispatch.md). -/

namespace Sys2Proof.Machine

open Sys2Proof

/-- REQ_DISCOVER (43_dispatch.md R165). -/
def execReqDiscover (addr : Nibble) (chk : Half) (s : State) : Host.Outcome State Fault Refusal :=
  let f := requestFrame CMD_DISCOVER addr chk
  serveRequest f (fun T => doDiscover T f) s

/-- REQ_TYPE (43_dispatch.md R169). -/
def execReqType (addr : Nibble) (chk : Half) (s : State) : Host.Outcome State Fault Refusal :=
  let f := requestFrame CMD_TYPE addr chk
  serveRequest f (fun T => doType T f) s

/-- REQ_MEASUREMENT (43_dispatch.md R172). -/
def execReqMeasurement (addr : Nibble) (chk : Half) (s : State) : Host.Outcome State Fault Refusal :=
  let f := requestFrame CMD_MEAS addr chk
  serveRequest f (fun T => doMeasurement T f) s

/-- REQ_UNHANDLED_CMD_0x0_TO_0x7 (43_dispatch.md R176). -/
def execReqUnhandledLow (cmd addr : Nibble) (chk : Half) (s : State) : Host.Outcome State Fault Refusal :=
  let f := requestFrame cmd addr chk
  serveRequest f (fun _ => ignoreCommand f) s

/-- REQ_UNHANDLED_CMD_0xB_TO_0xF (43_dispatch.md R176). -/
def execReqUnhandledHigh (cmd addr : Nibble) (chk : Half) (s : State) : Host.Outcome State Fault Refusal :=
  let f := requestFrame cmd addr chk
  serveRequest f (fun _ => ignoreCommand f) s

end Sys2Proof.Machine
end

