-- ==== Sys2Proof/Machine/HostTxn.lean ====
section
/-! DEFINITION. HostTxn.lean: the host transactions (44_host_interface.md) and POLL (42_framing.md). -/

namespace Sys2Proof.Machine

open Sys2Proof

/-- HOST_INIT (44_host_interface.md R190, 60_exceptions.md R243). -/
def execHostInit (T : Nat) (s : State) : Host.Outcome State Fault Refusal :=
  if s.bound then .fault .rebind
  else if s.takenByPeer T then .refused .sharedTransport
  else .next ({ s with transport := some T }.answer .done)

/-- The handling of a frame just read (42_framing.md R140): the meaning of the request it decodes to, or a framing error
when it decodes to none (R143). -/
def serveFrame (T : Nat) (f : Frame) (s : State) : Host.Outcome State Fault Refusal :=
  match decodeFrame f with
  | some (.reqDiscover addr chk) => execReqDiscover addr chk s
  | some (.reqType addr chk) => execReqType addr chk s
  | some (.reqMeasurement addr chk) => execReqMeasurement addr chk s
  | some (.reqUnhandledLow cmd addr chk) => execReqUnhandledLow cmd addr chk s
  | some (.reqUnhandledHigh cmd addr chk) => execReqUnhandledHigh cmd addr chk s
  | _ => .next (dropBadLength T f s)

/-- A transaction's result joined to the outcome of its work. -/
def returning (r : Result) : Host.Outcome State Fault Refusal → Host.Outcome State Fault Refusal
  | .next s => .next (s.answer r)
  | .fault e => .fault e
  | .refused e => .refused e

/-- HOST_POLL (42_framing.md R140, R149, R153). -/
def execHostPoll (s : State) : Host.Outcome State Fault Refusal :=
  match s.transport with
  | none => .fault .unbound
  | some T =>
    match s.takeFrame T with
    | none => .next (s.answer .done)
    | some (f, s') => returning .done (serveFrame T f s')

/-- HOST_UPSERT (44_host_interface.md R192). -/
def execHostUpsert (t : Byte) (v : Half) (s : State) : Host.Outcome State Fault Refusal :=
  .next (upsertAnswered t v s)

/-- HOST_SET_KIND (44_host_interface.md R195). -/
def execHostSetKind (k : Kind) (x : Reading) (s : State) : Host.Outcome State Fault Refusal :=
  match converted s.params k x with
  | .store v => .next (upsertAnswered (kindCode s.params.kindMap k) v s)
  | .fault => .fault .convRange

/-- HOST_GET_REQ_COUNT (44_host_interface.md R196). -/
def execHostGetReqCount (s : State) : Host.Outcome State Fault Refusal :=
  .next (s.answer (.reqCount s.reqCount))

/-- HOST_GET_RESP_COUNT (44_host_interface.md R197). -/
def execHostGetRespCount (s : State) : Host.Outcome State Fault Refusal :=
  .next (s.answer (.respCount s.respCount))

/-- HOST_GET_DISCOVERED (44_host_interface.md R198). -/
def execHostGetDiscovered (s : State) : Host.Outcome State Fault Refusal :=
  .next (s.answer (.discovered s.discovered))

/-- HOST_SET_DEBUG (44_host_interface.md R199). -/
def execHostSetDebug (e : Bool) (s : State) : Host.Outcome State Fault Refusal :=
  .next ((s.setDebug e).answer .done)

/-- HOST_GET_OCCUPIED (44_host_interface.md R200). -/
def execHostGetOccupied (s : State) : Host.Outcome State Fault Refusal :=
  .next (s.answer (.occupied (BitVec.ofNat 3 (occupiedCount s.slots))))

/-- HOST_UNASSIGNED names no operation and is refused (44_host_interface.md R201). -/
def execHostUnassigned (_op : Nibble) (_s : State) : Host.Outcome State Fault Refusal :=
  .refused .unassignedOp

end Sys2Proof.Machine
end

