-- ==== Sys2Proof/Machine/Response.lean ====
section
/-! DEFINITION. Response.lean: the response words. The meaning of a response is that the block constructs it, checksum
included, and EMITs it (30_encoding.md R84 to R86, 43_dispatch.md R164); the checksum operand of a well-formed response is
the one constructed (notes/assumptions/7.md). -/

namespace Sys2Proof.Machine

open Sys2Proof

/-- RSP_DISCOVER (30_encoding.md R84). -/
def execRspDiscover (addr : Nibble) (s : State) : Host.Outcome State Fault Refusal :=
  emitBound (discoverResponse (cmdAddr CMD_DISCOVER addr)) s

/-- RSP_TYPE (30_encoding.md R85). -/
def execRspType (addr : Nibble) (t : Byte) (s : State) : Host.Outcome State Fault Refusal :=
  emitBound (typeResponse addr t) s

/-- RSP_MEASUREMENT (30_encoding.md R86). -/
def execRspMeasurement (addr : Nibble) (v : Half) (s : State) : Host.Outcome State Fault Refusal :=
  emitBound (measurementResponse addr v) s

end Sys2Proof.Machine
end

