-- ==== Sys2Proof/Machine/TableOps.lean ====
section
/-! DEFINITION. TableOps.lean: the Sensor Table's operations at their internal port (40_sensor_table.md). -/

namespace Sys2Proof.Machine

open Sys2Proof

/-- TBL_UPSERT (40_sensor_table.md R110). -/
def execTblUpsert (t : Byte) (v : Half) (s : State) : Host.Outcome State Fault Refusal :=
  .next (upsertAnswered t v s)

/-- TBL_FIND_BY_TYPE (40_sensor_table.md R112). -/
def execTblFindByType (t : Byte) (s : State) : Host.Outcome State Fault Refusal :=
  .next (s.answer (.found (findByType s.slots t)))

/-- TBL_AT (40_sensor_table.md R114). -/
def execTblAt (a : Nibble) (s : State) : Host.Outcome State Fault Refusal :=
  .next (s.answer (.slotAt (slotAt s.slots a)))

/-- TBL_OCCUPIED_COUNT (40_sensor_table.md R116). -/
def execTblOccupiedCount (s : State) : Host.Outcome State Fault Refusal :=
  .next (s.answer (.occupied (BitVec.ofNat 3 (occupiedCount s.slots))))

end Sys2Proof.Machine
end

