-- ==== Sys2Proof/Machine/Dispatch.lean ====
section
/-! DEFINITION. Dispatch.lean: one arm for each instruction. -/

namespace Sys2Proof.Machine

open Sys2Proof

def exec (i : Instr) (s : State) : Host.Outcome State Fault Refusal :=
  match i with
  -- Request frames (43_dispatch.md)
  | .reqDiscover addr chk => Sys2Proof.Machine.execReqDiscover addr chk s
  | .reqType addr chk => Sys2Proof.Machine.execReqType addr chk s
  | .reqMeasurement addr chk => Sys2Proof.Machine.execReqMeasurement addr chk s
  | .reqUnhandledLow cmd addr chk => Sys2Proof.Machine.execReqUnhandledLow cmd addr chk s
  | .reqUnhandledHigh cmd addr chk => Sys2Proof.Machine.execReqUnhandledHigh cmd addr chk s
  -- Response frames (30_encoding.md)
  | .rspDiscover addr _ => Sys2Proof.Machine.execRspDiscover addr s
  | .rspType addr t _ => Sys2Proof.Machine.execRspType addr t s
  | .rspMeasurement addr v _ => Sys2Proof.Machine.execRspMeasurement addr v s
  -- Host transactions (44_host_interface.md, 42_framing.md)
  | .hostInit T => Sys2Proof.Machine.execHostInit T s
  | .hostPoll => Sys2Proof.Machine.execHostPoll s
  | .hostUpsert t v => Sys2Proof.Machine.execHostUpsert t v s
  | .hostSetKind k x => Sys2Proof.Machine.execHostSetKind k x s
  | .hostGetReqCount => Sys2Proof.Machine.execHostGetReqCount s
  | .hostGetRespCount => Sys2Proof.Machine.execHostGetRespCount s
  | .hostGetDiscovered => Sys2Proof.Machine.execHostGetDiscovered s
  | .hostSetDebug e => Sys2Proof.Machine.execHostSetDebug e s
  | .hostGetOccupied => Sys2Proof.Machine.execHostGetOccupied s
  | .hostUnassigned op => Sys2Proof.Machine.execHostUnassigned op s
  -- Table operations (40_sensor_table.md)
  | .tblUpsert t v => Sys2Proof.Machine.execTblUpsert t v s
  | .tblFindByType t => Sys2Proof.Machine.execTblFindByType t s
  | .tblAt a => Sys2Proof.Machine.execTblAt a s
  | .tblOccupiedCount => Sys2Proof.Machine.execTblOccupiedCount s

end Sys2Proof.Machine
end

