-- ==== Sys2Proof/Machine/Issue.lean ====
section
/-! DEFINITION. Issue.lean: how an act of the host or the receiver reaches the block: a transaction is decoded from the
bytes at its port and run (30_encoding.md R94), and the receiver appends to a transport (60_exceptions.md R238). -/

namespace Sys2Proof.Machine

open Sys2Proof

/-- Bytes presented at the host port of the instance in hand. A marked instance takes no further transaction (10_state.md
R52); otherwise the decoded instruction runs, and the machine goes on with what R225 and R226 of 60_exceptions.md say its
outcome leaves. Bytes left over after the operands are ignored: the spec gives no byte layout, and this is the model's
choice (notes/assumptions/5.md). -/
def runHost (bytes : List Byte) (s : State) : Host.Outcome State Fault Refusal :=
  if s.marked then .fault .quiescent
  else
    match decode .host bytes with
    | .ok i _ => .next (s.conclude (exec i s))
    | .reject _ => .refused .malformed

/-- One act (60_exceptions.md R238). -/
def perform (m : Move) (s : State) : Host.Outcome State Fault Refusal :=
  match m with
  | .host bytes arriving => runHost bytes { s with arriving := arriving }
  | .receiver T bytes => .next (s.rxAppend T bytes)
  | .turn => .next s.turnToNext
  | .construct => .next s.constructNew
  | .restart => .next s.restartBlock

/-! ## Placing a word

The block fetches nothing (20_memory.md R74): a word runs when the host or the receiver brings it about. Everything below
sets up the state whose next step does so (notes/assumptions/4.md). -/

/-- No mark is set, so that the instance takes a transaction. -/
def State.unmarked (s : State) : State := { s with faulted := false, refused := false }

/-- The transport the instance is bound to, transport 0 for one that is not bound. -/
def State.boundOrZero (s : State) : Nat := s.transport.getD 0

/-- Bound to its transport, or to transport 0 when it was not bound, as after an INIT. -/
def State.bindIfUnbound (s : State) : State := { s with transport := some s.boundOrZero }

/-- The next act is the host transaction that these bytes are (30_encoding.md R94). -/
def State.presentHost (bytes : List Byte) (s : State) : State :=
  { s.unmarked with agenda := .host bytes [] :: s.agenda }

/-- These four bytes are the oldest of `RX`, and the next act is the POLL that frames them (42_framing.md R142). -/
def State.presentRequest (bytes : List Byte) (s : State) : State :=
  (s.bindIfUnbound.setRx s.boundOrZero (bytes.take 4 ++ s.rx s.boundOrZero)).presentHost (encode .hostPoll)

/-- The bytes of a valid request (30_encoding.md R97). -/
def validRequest (cmd addr : Nibble) : List Byte :=
  frameBytes (requestFrame cmd addr (chk2 LEN4 (cmdAddr cmd addr)))

/-- The slot behind an address is occupied, with the fields given; nothing for an address that names no slot. -/
def State.fill (addr : Nibble) (given : Slot → Slot) (s : State) : State :=
  match slotOfAddr addr with
  | some i => { s with slots := s.slots.set i (some (given (s.slots[i].getD { type := 0, value := 0 }))) }
  | none => s

/-- The value a type has now, 0 for a type that no slot holds. -/
def heldValue (table : Table) (t : Byte) : Half :=
  match findByType table t with
  | some i => (table[i].map Slot.value).getD 0
  | none => 0

/-- A word of an internal port is brought about by the transaction in which the engine drives it (30_encoding.md R96): a
response by the request that it answers, an upsert by the host's, a search by the upsert that searches, a lookup by the
request that looks up, a count by the host's. -/
def State.drive (i : Instr) (s : State) : State :=
  match i with
  | .rspDiscover addr _ => (s.fill addr id).presentRequest (validRequest CMD_DISCOVER addr)
  | .rspType addr t _ =>
    (s.fill addr fun slot => { slot with type := t }).presentRequest (validRequest CMD_TYPE addr)
  | .rspMeasurement addr v _ =>
    (s.fill addr fun slot => { slot with value := v }).presentRequest (validRequest CMD_MEAS addr)
  | .tblUpsert t v => s.presentHost (encode (.hostUpsert t v))
  | .tblFindByType t => s.presentHost (encode (.hostUpsert t (heldValue s.slots t)))
  | .tblAt addr => s.presentRequest (validRequest CMD_TYPE addr)
  | .tblOccupiedCount => s.presentHost (encode .hostGetOccupied)
  | .reqDiscover _ _ | .reqType _ _ | .reqMeasurement _ _ | .reqUnhandledLow _ _ _ | .reqUnhandledHigh _ _ _
  | .hostInit _ | .hostPoll | .hostUpsert _ _ | .hostSetKind _ _ | .hostGetReqCount | .hostGetRespCount
  | .hostGetDiscovered | .hostSetDebug _ | .hostGetOccupied | .hostUnassigned _ => s

/-- The state whose next step runs the word that these bytes are at a port; bytes that are no word of an internal port are
presented as no transaction. -/
def State.present (p : Port) (bytes : List Byte) (s : State) : State :=
  match p with
  | .host => s.presentHost bytes
  | .request => s.presentRequest bytes
  | .response | .table =>
    match decode p bytes with
    | .ok i _ => s.drive i
    | .reject _ => s.presentHost []

end Sys2Proof.Machine
end

