-- ==== Sys2Proof/Machine/Step.lean ====
section
/-! DEFINITION. Step.lean: one step, and the placing of a word where the next step runs it. -/

namespace Sys2Proof.Machine

open Sys2Proof

/-- One step: the next act of the agenda is performed. With nothing to do the block does nothing (60_exceptions.md R245,
00_scope.md R16). -/
def step (s : State) : Host.Outcome State Fault Refusal :=
  match s.agenda with
  | [] => .next s
  | m :: rest => perform m { s with agenda := rest }

/-- The state with a word of spec/opcode_table.json placed where the next step runs it. -/
def State.withFetchWord (s : State) (nbits w : Nat) : State :=
  s.present (tablePort nbits) (tableBytes nbits w)

end Sys2Proof.Machine
end

