-- ==== Sys2Proof/Safety.lean ====
section
/-! DEFINITION. Safety.lean: what the spec promises of every state between transactions (10_state.md R32, R33, R37, R44),
and what a final run is (70_reset_and_hazards.md R264). -/

namespace Sys2Proof

/-- A `RealNumber` as the real number it is. -/
def RealNumber.toReal : RealNumber → ℝ
  | .rational q => (q : ℝ)
  | .irrational x _ => x

end Sys2Proof

namespace Sys2Proof.Machine

open Sys2Proof

/-- The occupied slots form an initial segment: below an occupied slot every slot is occupied (10_state.md R33). -/
abbrev OccupiedInitial (table : Table) : Prop := ∀ i j : Fin CAP, i < j → occupied table j → occupied table i

/-- A type occupies at most one slot (10_state.md R32 (c)). -/
abbrev TypesDistinct (table : Table) : Prop :=
  ∀ i j : Fin CAP, i ≠ j → occupied table i → table[i].map Slot.type ≠ table[j].map Slot.type

/-- What holds of an instance at every boundary between transactions: the table's two invariants, both counters `CNT_W`
bits wide (10_state.md R44), the state machine IDLE (R37) and no frame in the buffer (R38). -/
abbrev Block.Inv (p : Params) (b : Block) : Prop :=
  OccupiedInitial b.slots ∧ TypesDistinct b.slots ∧ b.reqCount < 2 ^ p.cntW ∧ b.respCount < 2 ^ p.cntW ∧
    b.fsm = .idle ∧ b.frame = none

/-- No two instances are bound to one transport (60_exceptions.md R243). -/
abbrev TransportsDistinct (bs : List Block) : Prop :=
  bs.Pairwise fun a b => a.transport = none ∨ a.transport ≠ b.transport

/-- What holds of the machine between acts. -/
abbrev State.Inv (s : State) : Prop :=
  s.toBlock.Inv s.params ∧ (∀ b ∈ s.peers, b.Inv s.params) ∧ TransportsDistinct (s.toBlock :: s.peers) ∧
    wiresWf s.wires ∧ s.arriving = []

/-- Did a transaction that returned this end Ok (60_exceptions.md R225)? -/
def Result.isOk : Result → Bool
  | .faulted _ => false
  | .refused _ => false
  | .done => true
  | .applied _ => true
  | .reqCount _ => true
  | .respCount _ => true
  | .discovered _ => true
  | .occupied _ => true
  | .found _ => true
  | .slotAt _ => true

/-- The run of this one instance so far is final: every transaction of it ended Ok and neither mark is set
(70_reset_and_hazards.md R264). -/
def Block.final (b : Block) : Bool := b.results.all Result.isOk && !b.marked

/-! ## The words the claims are stated in -/

/-- No transport but `T` has changed. -/
def OtherWiresSame (s t : State) (T : Nat) : Prop := ∀ T' : Nat, T' ≠ T → t.rx T' = s.rx T' ∧ t.tx T' = s.tx T'

/-- No transport has changed. -/
def AllWiresSame (s t : State) : Prop := ∀ T : Nat, t.rx T = s.rx T ∧ t.tx T = s.tx T

/-- A response frame whose checksum re-validates with the formula of its length (41_checksum.md R136). -/
def Revalidates (r : List Byte) : Prop :=
  (∃ r0 r1 r2 r3, r = [r0, r1, r2, r3] ∧ (r3 ++ r2 : Half) = chk2 r0 r1) ∨
  (∃ r0 r1 r2 r3 r4 r5, r = [r0, r1, r2, r3, r4, r5] ∧ (r5 ++ r4 : Half) = chk4 r0 r1 r2 r3)

/-- `DIAG` after the events are offered one after another (60_exceptions.md R240). -/
def State.diagAfter (s : State) (es : List DiagEvent) : List DiagEvent := if s.debugEn then s.diag ++ es else s.diag

/-- The debug toggle off and the diagnostic log forgotten: what is left of a state is everything else
(10_state.md R42, R47). -/
def State.undebugged (s : State) : State := { s with debugEn := false, diag := [] }

/-- An outcome seen through a function of its next state. -/
def seenThrough (g : State → State) : Host.Outcome State Fault Refusal → Host.Outcome State Fault Refusal
  | .next s => .next (g s)
  | .fault r => .fault r
  | .refused r => .refused r

/-- The instruction a request frame with command `cmd`, address `addr` and checksum `chk` stands for, when its length byte
is 0x04. -/
def IsRequest (i : Instr) (cmd addr : Nibble) (chk : Half) : Prop :=
  (i = .reqDiscover addr chk ∧ cmd = 0x8) ∨ (i = .reqType addr chk ∧ cmd = 0x9) ∨
  (i = .reqMeasurement addr chk ∧ cmd = 0xA) ∨ (i = .reqUnhandledLow cmd addr chk ∧ cmd.toNat < 0x8) ∨
  (i = .reqUnhandledHigh cmd addr chk ∧ 0xA < cmd.toNat)

/-- What a request that gets no response leaves: `RX` drained, the request counted or not, the named event offered after
FRAME_SEEN, and nothing else changed. -/
def LeftInSilence (s s' : State) (T count : Nat) (f : Frame) (e : DiagEvent) : Prop :=
  s'.rx T = [] ∧ s'.tx T = s.tx T ∧ OtherWiresSame s s' T ∧
    s' = { s with
      reqCount := count, diag := s.diagAfter [.frameSeen f, e], fsm := .idle, frame := none, arriving := [],
      wires := s'.wires }

end Sys2Proof.Machine
end

