-- ==== Sys2Proof/Certificates/Slice0/Obligations.lean ====
section
/-! DEFINITION. Obligations.lean: the statements for the provers, each a formal reading of the rules its docstring names.
A request's byte 1 is written `0x8#4 ++ addr` and so on, and a checksum by the CHK2 and CHK4 that
`Obligations.ChecksumsAreComplementsOfSums` pins down. -/

open Sys2Proof Sys2Proof.Machine

/-! ## Encoding and checksums -/

/-- The four worked encodings of 30_encoding.md R98, as bytes in wire order and as the word W. -/
def Obligations.WorkedRequestsEncodeAndDecode : Prop :=
  (encode (.reqDiscover 1 0xFF7A) = [0x04, 0x81, 0x7A, 0xFF] ∧
    decodeTableWord 32 0xFF7A8104 = some (.reqDiscover 1 0xFF7A)) ∧
  (encode (.reqType 1 0xFF6A) = [0x04, 0x91, 0x6A, 0xFF] ∧
    decodeTableWord 32 0xFF6A9104 = some (.reqType 1 0xFF6A)) ∧
  (encode (.reqMeasurement 1 0xFF5A) = [0x04, 0xA1, 0x5A, 0xFF] ∧
    decodeTableWord 32 0xFF5AA104 = some (.reqMeasurement 1 0xFF5A)) ∧
  (encode (.reqDiscover 4 0xFF77) = [0x04, 0x84, 0x77, 0xFF] ∧
    decodeTableWord 32 0xFF778404 = some (.reqDiscover 4 0xFF77))

/-- Words of the other families written out from their encodings: the unhandled commands (95_test_vectors.md section
2.2), the responses (section 2.3), the host selectors (30_encoding.md R94) and the table selectors (R96). The layout of
the operand bytes after a selector is the model's own (notes/assumptions/5.md). -/
def Obligations.WrittenOutWordsDecode : Prop :=
  decode .request [0x04, 0x74, 0x87, 0xFF] = .ok (.reqUnhandledLow 7 4 0xFF87) [] ∧
  decode .request [0x04, 0xFC, 0xFF, 0xFE] = .ok (.reqUnhandledHigh 0xF 12 0xFEFF) [] ∧
  decode .response [0x04, 0x84, 0x77, 0xFF] = .ok (.rspDiscover 4 0xFF77) [] ∧
  decode .response [0x06, 0x94, 0xFF, 0x02, 0x64, 0xFE] = .ok (.rspType 4 0xFF 0xFE64) [] ∧
  decode .response [0x06, 0xA2, 0x8A, 0x02, 0xCB, 0xFE] = .ok (.rspMeasurement 2 650 0xFECB) [] ∧
  decode .host [0x01] = .ok .hostPoll [] ∧
  decode .host [0x02, 0x00, 0xFC, 0x01] = .ok (.hostUpsert 0x00 508) [] ∧
  decode .host [0x07, 0x01] = .ok (.hostSetDebug true) [] ∧
  decode .host [0x09] = .ok (.hostUnassigned 0x9) [] ∧
  decode .host [0x0F] = .ok (.hostUnassigned 0xF) [] ∧
  decode .table [0x01, 0x03] = .ok (.tblFindByType 0x03) [] ∧
  decode .table [0x02, 0x0F] = .ok (.tblAt 15) []

/-- Decoding reads back what encoding writes, for every well-formed instruction, every value of its operands, and
whatever bytes follow it. The layout of the bytes of a host transaction or a table operation is the model's own
(notes/assumptions/5.md). -/
def Obligations.DecodeReadsBackEncode : Prop :=
  ∀ i : Instr, i.wf = true → ∀ rest : List Byte, decode i.port (encode i ++ rest) = .ok i rest

/-- At the wire and at the table port a word has one meaning: what decodes to an instruction is that instruction's
encoding; and at the request port every instruction read is well formed. For the table port this rests on the model's own
layout of the selector byte and the operand bytes, a DESIGN CHOICE (notes/assumptions/5.md): 30_encoding.md R96 gives the
selectors, the operands and their widths, and no bytes. -/
def Obligations.WireWordsHaveOneMeaning : Prop :=
  ∀ (p : Port) (bytes rest : List Byte) (i : Instr), p ≠ .host → decode p bytes = .ok i rest →
    i.port = p ∧ bytes = encode i ++ rest ∧ (p = .request → i.wf = true)

/-- 30_encoding.md R82, R83, R89, R90: the command is bits 7:4 of byte 1, the address bits 3:0, the received checksum
bytes 2 and 3 low byte first; the nibble picks the row; another length byte picks none. -/
def Obligations.FramesDecodeByCommandNibble : Prop :=
  ∀ (cmd addr : Nibble) (b0 c0 c1 : Byte),
    (b0 ≠ 0x04 → decodeFrame { b0 := b0, b1 := cmd ++ addr, b2 := c0, b3 := c1 } = none) ∧
    (b0 = 0x04 → ∀ f : Frame, f = { b0 := b0, b1 := cmd ++ addr, b2 := c0, b3 := c1 } →
      (cmd = 0x8 → decodeFrame f = some (.reqDiscover addr (c1 ++ c0))) ∧
      (cmd = 0x9 → decodeFrame f = some (.reqType addr (c1 ++ c0))) ∧
      (cmd = 0xA → decodeFrame f = some (.reqMeasurement addr (c1 ++ c0))) ∧
      (cmd.toNat < 0x8 → decodeFrame f = some (.reqUnhandledLow cmd addr (c1 ++ c0))) ∧
      (0xA < cmd.toNat → decodeFrame f = some (.reqUnhandledHigh cmd addr (c1 ++ c0))))

/-- 41_checksum.md R130, R131, R132: both checksums are 0xFFFF less the exact sum, whose `mod 2^16` never changes the
value, lie in the ranges of R132, and are the bitwise complement of the sum. -/
def Obligations.ChecksumsAreComplementsOfSums : Prop :=
  ∀ b0 b1 b2 b3 : Byte,
    (chk2 b0 b1).toNat = 0xFFFF - (b0.toNat + b1.toNat) ∧ 0xFE01 ≤ (chk2 b0 b1).toNat ∧
    chk2 b0 b1 = ~~~(BitVec.ofNat 16 (b0.toNat + b1.toNat)) ∧
    (chk4 b0 b1 b2 b3).toNat = 0xFFFF - (b0.toNat + b1.toNat + b2.toNat + b3.toNat) ∧
    0xFC03 ≤ (chk4 b0 b1 b2 b3).toNat ∧
    chk4 b0 b1 b2 b3 = ~~~(BitVec.ofNat 16 (b0.toNat + b1.toNat + b2.toNat + b3.toNat))

/-- 41_checksum.md R136: every response frame an instruction writes re-validates with the formula of its length; and
an instruction writes at most one. -/
def Obligations.ResponsesRevalidate : Prop :=
  ∀ (i : Instr) (s s' : State) (T : Nat), exec i s = .next s' →
    s'.tx T = s.tx T ∨ ∃ r, s'.tx T = s.tx T ++ r ∧ Revalidates r

/-- 41_checksum.md R137: the DISCOVER response equals, byte for byte, the valid request that caused it. -/
def Obligations.DiscoverResponseEqualsItsRequest : Prop :=
  ∀ f : Frame, f.b0 = 0x04 → (f.b3 ++ f.b2 : Half) = chk2 f.b0 f.b1 → discoverResponse f.b1 = [f.b0, f.b1, f.b2, f.b3]

/-! ## The Sensor Table -/

/-- 40_sensor_table.md R110, R117 and 44_host_interface.md R192, at the host port and at the table port: a bound type has
its value overwritten in its own slot and 1 is returned; a new type goes into the first free slot and 1 is returned; with no
free slot the table is unchanged, 0 is returned and CAPACITY_EXCEEDED is offered. Nothing else changes in any case. -/
def Obligations.UpsertFollowsItsThreeCases : Prop :=
  ∀ (s : State) (t : Byte) (v : Half) (i : Instr), (i = .hostUpsert t v ∨ i = .tblUpsert t v) → TypesDistinct s.slots →
    (∀ (k : Fin CAP) (old : Half), s.slots[k] = some { type := t, value := old } →
      exec i s = .next { s with
        slots := s.slots.set k (some { type := t, value := v }), results := s.results ++ [.applied true] }) ∧
    ((∀ (k : Fin CAP) (slot : Slot), s.slots[k] = some slot → slot.type ≠ t) →
      (∀ j : Fin CAP, s.slots[j] = none → (∀ k : Fin CAP, k < j → s.slots[k] ≠ none) →
        exec i s = .next { s with
          slots := s.slots.set j (some { type := t, value := v }), results := s.results ++ [.applied true] }) ∧
      ((∀ j : Fin CAP, s.slots[j] ≠ none) →
        exec i s = .next { s with
          diag := s.diagAfter [.capacityExceeded t v], results := s.results ++ [.applied false] }))

/-- 40_sensor_table.md R111: the first insertion of a type goes into slot OCCUPIED_COUNT() as counted just before it, so
that its address is OCCUPIED_COUNT() + 1; and an upsert of a bound type keeps its address. -/
def Obligations.AddressIsOrderOfFirstInsertion : Prop :=
  ∀ (s : State) (t : Byte) (v : Half), OccupiedInitial s.slots → TypesDistinct s.slots →
    ((∀ (k : Fin CAP) (slot : Slot), s.slots[k] = some slot → slot.type ≠ t) →
      ∀ j : Fin CAP, occupiedCount s.slots = j.val →
        ∃ s', exec (.hostUpsert t v) s = .next s' ∧ s'.slots[j] = some { type := t, value := v } ∧
          slotAt s'.slots (BitVec.ofNat 4 (occupiedCount s.slots + 1)) = some j ∧
          occupiedCount s'.slots = occupiedCount s.slots + 1) ∧
    (∀ (k : Fin CAP) (slot : Slot), s.slots[k] = some slot → slot.type = t →
      ∃ s', exec (.hostUpsert t v) s = .next s' ∧ s'.slots[k] = some { type := t, value := v } ∧
        occupiedCount s'.slots = occupiedCount s.slots)

/-- 40_sensor_table.md R112, R113: FIND_BY_TYPE returns the only occupied slot holding the type, NOTFOUND when there is
none, and writes nothing. -/
def Obligations.FindByTypeAnswersTheOnlyHolder : Prop :=
  ∀ (s : State) (t : Byte), TypesDistinct s.slots →
    ∃ r : Option (Fin CAP), exec (.tblFindByType t) s = .next { s with results := s.results ++ [.found r] } ∧
      (∀ k : Fin CAP, r = some k ↔ ∃ v, s.slots[k] = some { type := t, value := v }) ∧
      (r = none ↔ ∀ (k : Fin CAP) (slot : Slot), s.slots[k] = some slot → slot.type ≠ t)

/-- 40_sensor_table.md R114: AT returns slot `a - 1` exactly when `a` is in 1 to 4 and that slot is occupied, else ABSENT,
and writes nothing. -/
def Obligations.AtAnswersTheOccupiedSlotBehindAnAddress : Prop :=
  ∀ (s : State) (a : Nibble),
    ∃ r : Option (Fin CAP), exec (.tblAt a) s = .next { s with results := s.results ++ [.slotAt r] } ∧
      (∀ k : Fin CAP, r = some k ↔ a.toNat = k.val + 1 ∧ s.slots[k] ≠ none) ∧
      (r = none ↔ ∀ k : Fin CAP, a.toNat = k.val + 1 → s.slots[k] = none)

/-- 40_sensor_table.md R116, 44_host_interface.md R200: the number of occupied slots, as a 3-bit value, at the table port
and at the host port; nothing is written. -/
def Obligations.OccupiedCountCountsTheOccupiedSlots : Prop :=
  ∀ (s : State) (i : Instr), (i = .tblOccupiedCount ∨ i = .hostGetOccupied) →
    ∃ n : BitVec 3, exec i s = .next { s with results := s.results ++ [.occupied n] } ∧
      n.toNat = (Finset.univ.filter fun k : Fin CAP => s.slots[k] ≠ none).card

/-- 10_state.md R32 (b), R33: no instruction clears an occupied slot or changes its type. -/
def Obligations.BindingsAreNeverClearedOrMoved : Prop :=
  ∀ (i : Instr) (s s' : State), exec i s = .next s' → ∀ (k : Fin CAP) (slot : Slot), s.slots[k] = some slot →
    ∃ v, s'.slots[k] = some { type := slot.type, value := v }

/-- 10_state.md R35, 60_exceptions.md R233: only UPSERT and SET_KIND (and the table's own upsert) write the table. -/
def Obligations.OnlySettersWriteTheTable : Prop :=
  ∀ (i : Instr) (s s' : State), exec i s = .next s' →
    (s'.slots ≠ s.slots → (∃ t v, i = .hostUpsert t v) ∨ (∃ k x, i = .hostSetKind k x) ∨ ∃ t v, i = .tblUpsert t v)

/-! ## Request frames -/

/-- 43_dispatch.md R165, R166, R164, R160, R175 and 30_encoding.md R84: a valid DISCOVER request to an occupied slot. -/
def Obligations.DiscoverRequestIsAnswered : Prop :=
  ∀ (s : State) (T : Nat) (addr : Nibble) (k : Fin CAP) (slot : Slot), s.transport = some T →
    addr.toNat = k.val + 1 → s.slots[k] = some slot →
    ∀ (b1 : Byte) (c : Half) (r : List Byte) (f : Frame), b1 = 0x8#4 ++ addr → c = chk2 0x04 b1 →
      r = [0x04, b1, c.extractLsb' 0 8, c.extractLsb' 8 8] →
      f = { b0 := 0x04, b1 := b1, b2 := c.extractLsb' 0 8, b3 := c.extractLsb' 8 8 } →
      ∃ s', exec (.reqDiscover addr c) s = .next s' ∧
        s'.tx T = s.tx T ++ r ∧ s'.rx T = [] ∧ OtherWiresSame s s' T ∧
        s' = { s with
          reqCount := (s.reqCount + 1) % 2 ^ s.params.cntW, respCount := (s.respCount + 1) % 2 ^ s.params.cntW,
          discovered := true, diag := s.diagAfter [.frameSeen f, .responseSent r], fsm := .idle, frame := none,
          arriving := [], wires := s'.wires }

/-- 43_dispatch.md R169, R170, R164, R160, R175 and 30_encoding.md R85: a valid TYPE request to an occupied slot. -/
def Obligations.TypeRequestIsAnswered : Prop :=
  ∀ (s : State) (T : Nat) (addr : Nibble) (k : Fin CAP) (slot : Slot), s.transport = some T →
    addr.toNat = k.val + 1 → s.slots[k] = some slot →
    ∀ (b1 : Byte) (c d : Half) (r : List Byte) (f : Frame), b1 = 0x9#4 ++ addr → c = chk2 0x04 b1 →
      d = chk4 0x06 b1 slot.type 0x02 →
      r = [0x06, b1, slot.type, 0x02, d.extractLsb' 0 8, d.extractLsb' 8 8] →
      f = { b0 := 0x04, b1 := b1, b2 := c.extractLsb' 0 8, b3 := c.extractLsb' 8 8 } →
      ∃ s', exec (.reqType addr c) s = .next s' ∧
        s'.tx T = s.tx T ++ r ∧ s'.rx T = [] ∧ OtherWiresSame s s' T ∧
        s' = { s with
          reqCount := (s.reqCount + 1) % 2 ^ s.params.cntW, respCount := (s.respCount + 1) % 2 ^ s.params.cntW,
          diag := s.diagAfter [.frameSeen f, .responseSent r], fsm := .idle, frame := none, arriving := [],
          wires := s'.wires }

/-- 43_dispatch.md R172, R173, R164, R160, R175 and 30_encoding.md R86: a valid MEASUREMENT request to an occupied slot. -/
def Obligations.MeasurementRequestIsAnswered : Prop :=
  ∀ (s : State) (T : Nat) (addr : Nibble) (k : Fin CAP) (slot : Slot), s.transport = some T →
    addr.toNat = k.val + 1 → s.slots[k] = some slot →
    ∀ (b1 v0 v1 : Byte) (c d : Half) (r : List Byte) (f : Frame), b1 = 0xA#4 ++ addr → c = chk2 0x04 b1 →
      v0 = slot.value.extractLsb' 0 8 → v1 = slot.value.extractLsb' 8 8 → d = chk4 0x06 b1 v0 v1 →
      r = [0x06, b1, v0, v1, d.extractLsb' 0 8, d.extractLsb' 8 8] →
      f = { b0 := 0x04, b1 := b1, b2 := c.extractLsb' 0 8, b3 := c.extractLsb' 8 8 } →
      ∃ s', exec (.reqMeasurement addr c) s = .next s' ∧
        s'.tx T = s.tx T ++ r ∧ s'.rx T = [] ∧ OtherWiresSame s s' T ∧
        s' = { s with
          reqCount := (s.reqCount + 1) % 2 ^ s.params.cntW, respCount := (s.respCount + 1) % 2 ^ s.params.cntW,
          diag := s.diagAfter [.frameSeen f, .responseSent r], fsm := .idle, frame := none, arriving := [],
          wires := s'.wires }

/-- 43_dispatch.md R164 with 30_encoding.md R84 to R86, R96: the handling of a valid request to an occupied slot drives the
response word of the addressed slot, on the state in which the frame is buffered and the request counted; then the
discovered flag is set where the request is a DISCOVER, `RX` is drained, and the machine is IDLE. That the effect of a
response word is this EMIT is the model's reading (notes/assumptions/7.md). -/
def Obligations.ResponsesAreEmittedInsideTheRequest : Prop :=
  ∀ (s : State) (T : Nat) (cmd addr : Nibble) (c d : Half) (k : Fin CAP) (slot : Slot) (i r : Instr) (f : Frame),
    s.transport = some T → addr.toNat = k.val + 1 → s.slots[k] = some slot → IsRequest i cmd addr c →
    c = chk2 0x04 (cmd ++ addr) →
    f = { b0 := 0x04, b1 := cmd ++ addr, b2 := c.extractLsb' 0 8, b3 := c.extractLsb' 8 8 } →
    ((cmd = 0x8 ∧ r = .rspDiscover addr d) ∨ (cmd = 0x9 ∧ r = .rspType addr slot.type d) ∨
      (cmd = 0xA ∧ r = .rspMeasurement addr slot.value d)) → r.wf = true →
    ∃ s1 s2 s', s1.rx T = s.rx T ++ s.arriving ∧ s1.tx T = s.tx T ∧ OtherWiresSame s s1 T ∧
      s1 = { s with
        reqCount := (s.reqCount + 1) % 2 ^ s.params.cntW, diag := s.diagAfter [.frameSeen f], fsm := .processing,
        frame := some f, arriving := [], wires := s1.wires } ∧
      exec r s1 = .next s2 ∧ exec i s = .next s' ∧
      s'.rx T = [] ∧ s'.tx T = s2.tx T ∧ OtherWiresSame s2 s' T ∧
      s' = { s2 with
        discovered := s.discovered || decide (cmd = 0x8), fsm := .idle, frame := none, wires := s'.wires }

/-- 43_dispatch.md R162: a valid request of one of the three commands to an unoccupied slot. -/
def Obligations.UnoccupiedSlotAnswersNothing : Prop :=
  ∀ (s : State) (T : Nat) (cmd addr : Nibble) (c : Half) (k : Fin CAP) (i : Instr) (f : Frame),
    s.transport = some T → IsRequest i cmd addr c → (cmd = 0x8 ∨ cmd = 0x9 ∨ cmd = 0xA) →
    addr.toNat = k.val + 1 → s.slots[k] = none → c = chk2 0x04 (cmd ++ addr) →
    f = { b0 := 0x04, b1 := cmd ++ addr, b2 := c.extractLsb' 0 8, b3 := c.extractLsb' 8 8 } →
    ∃ s', exec i s = .next s' ∧
      LeftInSilence s s' T ((s.reqCount + 1) % 2 ^ s.params.cntW) f (.noSensor f)

/-- 43_dispatch.md R161, R160: a valid request, whatever its command, to an address that is not 1 to 4. -/
def Obligations.UnhandledAddressAnswersNothing : Prop :=
  ∀ (s : State) (T : Nat) (cmd addr : Nibble) (c : Half) (i : Instr) (f : Frame),
    s.transport = some T → IsRequest i cmd addr c → (addr.toNat < 1 ∨ 4 < addr.toNat) →
    c = chk2 0x04 (cmd ++ addr) →
    f = { b0 := 0x04, b1 := cmd ++ addr, b2 := c.extractLsb' 0 8, b3 := c.extractLsb' 8 8 } →
    ∃ s', exec i s = .next s' ∧
      LeftInSilence s s' T ((s.reqCount + 1) % 2 ^ s.params.cntW) f (.addrIgnored f)

/-- 43_dispatch.md R176: a valid request with a command nibble that is none of the three, to an address 1 to 4. -/
def Obligations.UnhandledCommandAnswersNothing : Prop :=
  ∀ (s : State) (T : Nat) (cmd addr : Nibble) (c : Half) (i : Instr) (f : Frame),
    s.transport = some T → IsRequest i cmd addr c → (cmd.toNat < 0x8 ∨ 0xA < cmd.toNat) →
    1 ≤ addr.toNat → addr.toNat ≤ 4 → c = chk2 0x04 (cmd ++ addr) →
    f = { b0 := 0x04, b1 := cmd ++ addr, b2 := c.extractLsb' 0 8, b3 := c.extractLsb' 8 8 } →
    ∃ s', exec i s = .next s' ∧
      LeftInSilence s s' T ((s.reqCount + 1) % 2 ^ s.params.cntW) f (.cmdIgnored f)

/-- 42_framing.md R145: a request whose checksum does not match is dropped, and not even counted. -/
def Obligations.BadChecksumIsDroppedUncounted : Prop :=
  ∀ (s : State) (T : Nat) (cmd addr : Nibble) (c : Half) (i : Instr) (f : Frame),
    s.transport = some T → IsRequest i cmd addr c → c ≠ chk2 0x04 (cmd ++ addr) →
    f = { b0 := 0x04, b1 := cmd ++ addr, b2 := c.extractLsb' 0 8, b3 := c.extractLsb' 8 8 } →
    ∃ s', exec i s = .next s' ∧ LeftInSilence s s' T s.reqCount f (.badChecksum f)

/-! ## Response frames -/

/-- 30_encoding.md R84 to R86 with 43_dispatch.md R164, R175: running a response word puts exactly the word of the
well-formed response out, counts it and offers RESPONSE_SENT. That a response word is an EMIT on its own is the model's
reading (notes/assumptions/7.md). -/
def Obligations.ResponseWordsAreEmitted : Prop :=
  ∀ (s : State) (T : Nat) (i : Instr), s.transport = some T → i.port = .response → i.wf = true →
    ∃ s', exec i s = .next s' ∧
      s'.tx T = s.tx T ++ encode i ∧ s'.rx T = s.rx T ∧ OtherWiresSame s s' T ∧
      s' = { s with
        respCount := (s.respCount + 1) % 2 ^ s.params.cntW, diag := s.diagAfter [.responseSent (encode i)],
        wires := s'.wires }

/-! ## POLL -/

/-- 42_framing.md R149: with fewer than 4 bytes in `RX` a POLL changes nothing. The result `done` in the record of results
is the model's own (notes/assumptions/3.md). -/
def Obligations.PollWithoutAFrameIsANoOp : Prop :=
  ∀ (s : State) (T : Nat), s.transport = some T → (s.rx T).length < 4 →
    exec .hostPoll s = .next { s with results := s.results ++ [.done] }

/-- 42_framing.md R153: a POLL before INIT ends in Fault(UNBOUND). -/
def Obligations.PollBeforeInitFaults : Prop :=
  ∀ s : State, s.transport = none → exec .hostPoll s = .fault .unbound

/-- A request or response word, which only a POLL reaches, likewise needs a transport: on an unbound instance it ends in
Fault(UNBOUND). This is the model's reading of 42_framing.md R153 (notes/assumptions/7.md). -/
def Obligations.WireWordsNeedATransport : Prop :=
  ∀ (s : State) (i : Instr), s.transport = none → (i.port = .request ∨ i.port = .response) →
    exec i s = .fault .unbound

/-- 42_framing.md R140, R142, R152: a POLL takes the four oldest bytes as a frame and runs the request they are, on the
state that holds only the later bytes. -/
def Obligations.PollRunsTheRequestItFrames : Prop :=
  ∀ (s : State) (T : Nat) (f : Frame) (rest : List Byte) (i : Instr), s.transport = some T →
    s.rx T = f.b0 :: f.b1 :: f.b2 :: f.b3 :: rest → decodeFrame f = some i →
    ∃ s1 s', (s1.rx T = rest ∧ s1.tx T = s.tx T ∧ OtherWiresSame s s1 T ∧ s1 = { s with wires := s1.wires }) ∧
      exec i s1 = .next s' ∧ exec .hostPoll s = .next { s' with results := s'.results ++ [.done] }

/-- 42_framing.md R143, R147: a frame with another length byte is dropped, whatever its checksum. -/
def Obligations.PollDropsABadLength : Prop :=
  ∀ (s : State) (T : Nat) (f : Frame) (rest : List Byte), s.transport = some T →
    s.rx T = f.b0 :: f.b1 :: f.b2 :: f.b3 :: rest → f.b0 ≠ 0x04 →
    ∃ s', exec .hostPoll s = .next { s' with results := s'.results ++ [.done] } ∧
      LeftInSilence s s' T s.reqCount f (.badLength f)

/-- 43_dispatch.md R177: a POLL that frames writes at most one response, of 4 or 6 bytes, and writes one exactly when the
frame is valid, its command is one of the three and its address names an occupied slot; the counters move with it. -/
def Obligations.PollAnswersExactlyWhenItShould : Prop :=
  ∀ (s : State) (T : Nat) (b0 c0 c1 : Byte) (cmd addr : Nibble) (rest : List Byte) (valid answered : Prop),
    s.transport = some T → s.rx T = b0 :: (cmd ++ addr) :: c0 :: c1 :: rest →
    (valid ↔ b0 = 0x04 ∧ (c1 ++ c0 : Half) = chk2 b0 (cmd ++ addr)) →
    (answered ↔ valid ∧ (cmd = 0x8 ∨ cmd = 0x9 ∨ cmd = 0xA) ∧
      ∃ k : Fin CAP, addr.toNat = k.val + 1 ∧ s.slots[k] ≠ none) →
    ∃ s', exec .hostPoll s = .next s' ∧
      (answered → (∃ r, (r.length = 4 ∨ r.length = 6) ∧ s'.tx T = s.tx T ++ r) ∧
        s'.respCount = (s.respCount + 1) % 2 ^ s.params.cntW) ∧
      (¬answered → s'.tx T = s.tx T ∧ s'.respCount = s.respCount) ∧
      (valid → s'.reqCount = (s.reqCount + 1) % 2 ^ s.params.cntW) ∧
      (¬valid → s'.reqCount = s.reqCount) ∧
      (answered ∧ cmd = 0x8 → s'.discovered = true) ∧
      (¬(answered ∧ cmd = 0x8) → s'.discovered = s.discovered) ∧
      OtherWiresSame s s' T ∧
      s' = { s with
        reqCount := s'.reqCount, respCount := s'.respCount, discovered := s'.discovered, diag := s'.diag,
        results := s.results ++ [.done], fsm := .idle, frame := none, arriving := [], wires := s'.wires }

/-- 42_framing.md R147, R148: a POLL that framed a packet, valid or not, answered or not, ends IDLE with `RX` empty. -/
def Obligations.FramedPollEndsIdleAndDrained : Prop :=
  ∀ (s : State) (T : Nat), s.transport = some T → 4 ≤ (s.rx T).length →
    ∃ s', exec .hostPoll s = .next s' ∧ s'.fsm = .idle ∧ s'.frame = none ∧ s'.rx T = []

/-- 42_framing.md R141: what the receiver appends inside a POLL that frames changes nothing of its outcome. -/
def Obligations.BytesArrivingInsideAPollAreDiscarded : Prop :=
  ∀ (s : State) (T : Nat) (a b : List Byte), s.transport = some T → 4 ≤ (s.rx T).length →
    exec .hostPoll { s with arriving := a } = exec .hostPoll { s with arriving := b }

/-- 44_host_interface.md R197: the response count is never greater than the request count while neither has wrapped, in
any instance, whatever act is performed. -/
def Obligations.ResponsesNeverOutnumberRequests : Prop :=
  ∀ s s' : State,
    (∀ b ∈ s.toBlock :: s.peers, b.respCount ≤ b.reqCount ∧ b.reqCount + 1 < 2 ^ s.params.cntW) →
    step s = .next s' → ∀ b ∈ s'.toBlock :: s'.peers, b.respCount ≤ b.reqCount

/-! ## Host transactions -/

/-- 44_host_interface.md R190, 60_exceptions.md R243: INIT of an unbound instance records a transport that no other
instance is bound to, and changes nothing else; INIT of a bound instance ends in Fault(REBIND); and INIT of a transport
another instance is bound to is refused with SHARED_TRANSPORT. Where both reasons hold, REBIND is the one, and an instance
counts as bound whether or not it is marked: both are the model's choice (DEDUCED, notes/assumptions/10.md). -/
def Obligations.InitBindsOnceAndAlone : Prop :=
  ∀ (s : State) (T : Nat),
    (s.transport = none → (∀ b ∈ s.peers, b.transport ≠ some T) →
      exec (.hostInit T) s = .next { s with transport := some T, results := s.results ++ [.done] }) ∧
    (∀ T', s.transport = some T' → exec (.hostInit T) s = .fault .rebind) ∧
    (s.transport = none → ∀ b ∈ s.peers, b.transport = some T → exec (.hostInit T) s = .refused .sharedTransport)

/-- 44_host_interface.md R196, R197, R198: the accessors return the register and write nothing. -/
def Obligations.AccessorsReturnTheirRegister : Prop :=
  ∀ s : State,
    exec .hostGetReqCount s = .next { s with results := s.results ++ [.reqCount s.reqCount] } ∧
    exec .hostGetRespCount s = .next { s with results := s.results ++ [.respCount s.respCount] } ∧
    exec .hostGetDiscovered s = .next { s with results := s.results ++ [.discovered s.discovered] }

/-- 44_host_interface.md R199: SET_DEBUG writes the toggle and nothing else. -/
def Obligations.SetDebugWritesTheToggle : Prop :=
  ∀ (s : State) (e : Bool),
    exec (.hostSetDebug e) s = .next { s with debugEn := e, results := s.results ++ [.done] }

/-- 44_host_interface.md R194, R195 and 00_scope.md R14: with `y` the exact product of the reading, a real number, and `n`
its rounding, SET_KIND upserts `n` under the kind's code when `n` is a 16-bit value; otherwise it upserts what `CONV_RANGE`
names, or ends in Fault(CONV_RANGE) when that is the choice. How a reading is presented, as a rational written out or as any
real number named, is the model's choice (notes/assumptions/6.md). -/
def Obligations.SetKindConvertsThenUpserts : Prop :=
  ∀ (s : State) (k : Kind) (x : Reading) (r : ℝ) (y : RealNumber) (n : Int), (readingValue x).toReal = r →
    ((k = .intv ∨ k = .extv) → y.toReal = r * 100) → (k = .temp → y.toReal = (r + 40) * 10) →
    (k = .rpm → y.toReal = r) → n = convRound s.params y →
    (0 ≤ n → n ≤ 0xFFFF → ∃ s', exec (.hostSetKind k x) s = .next s' ∧
      exec (.hostUpsert (kindCode s.params.kindMap k) (BitVec.ofInt 16 n)) s = .next s') ∧
    (n < 0 ∨ 0xFFFF < n →
      (∀ v, convRange s.params n = .store v → ∃ s', exec (.hostSetKind k x) s = .next s' ∧
        exec (.hostUpsert (kindCode s.params.kindMap k) v) s = .next s') ∧
      (convRange s.params n = .fault → exec (.hostSetKind k x) s = .fault .convRange))

/-- 00_scope.md R13: the maps the parameter can name are exactly the admissible ones: INTV is 0x00, the four codes are
distinct, and all are in 0x00 to 0x03. -/
def Obligations.KindCodesAreTheAdmissibleMaps : Prop :=
  ∀ f : Kind → Byte, (∃ m, f = kindCode m) ↔
    f .intv = 0x00 ∧ (∀ a b, f a = f b → a = b) ∧ ∀ a, (f a).toNat ≤ 0x03

/-- 44_host_interface.md R201: an `op` in 0x9 to 0xF is refused with UNASSIGNED_OP. That the selector is read from the low
nibble of a byte whose high nibble is 0 is the model's choice (notes/assumptions/5.md). -/
def Obligations.UnassignedOpIsRefused : Prop :=
  ∀ (s : State) (op : Nibble), 0x9 ≤ op.toNat →
    decode .host [0x0#4 ++ op] = .ok (.hostUnassigned op) [] ∧ exec (.hostUnassigned op) s = .refused .unassignedOp

/-! ## The machine -/

/-- 10_state.md R48, R50, R250: an instance just constructed. Of the state beside it, the empty transports and the empty
agenda are the model's choice (notes/assumptions/2.md, notes/assumptions/4.md). -/
def Obligations.ResetLeavesTheStatedValues : Prop :=
  (∀ k : Fin CAP, State.reset.slots[k] = none) ∧ State.reset.reqCount = 0 ∧ State.reset.respCount = 0 ∧
    State.reset.discovered = false ∧ State.reset.debugEn = false ∧ State.reset.transport = none ∧
    State.reset.fsm = .idle ∧ State.reset.frame = none ∧ State.reset.faulted = false ∧ State.reset.refused = false ∧
    State.reset.diag = [] ∧ 0 < State.reset.params.cntW ∧ core.reset = State.reset

/-- 10_state.md R49: the reset state satisfies the binding invariants, the occupied slots being an initial segment of
length 0, and with them everything else `State.Inv` says. -/
def Obligations.ResetSatisfiesTheInvariants : Prop :=
  State.reset.Inv ∧ ∀ k : Fin CAP, occupied State.reset.slots k = false

/-- 10_state.md R32, R33, R37, R38, R44 and 60_exceptions.md R243: every step keeps the invariants of every instance. -/
def Obligations.StepKeepsTheInvariants : Prop :=
  ∀ s s' : State, s.Inv → step s = .next s' → s'.Inv

/-- 30_encoding.md R94, 60_exceptions.md R225, R226: a step runs the instruction that the presented transaction decodes to,
at the state without the act, and goes on with what its outcome leaves. That the transactions to come stand in the state is
the model's choice (notes/assumptions/4.md), and so are a fault or refusal going on as a next state with its result recorded
(notes/assumptions/3.md) and bytes still arriving being settled at the end (notes/assumptions/8.md). -/
def Obligations.StepRunsThePresentedInstruction : Prop :=
  ∀ (s s0 : State) (rest : List Move) (bytes late after : List Byte) (i : Instr),
    s.agenda = .host bytes late :: rest → s.faulted = false → s.refused = false →
    decode .host bytes = .ok i after → s0 = { s with agenda := rest, arriving := late } →
    (∀ t, exec i s0 = .next t → step s = .next t.settle) ∧
    (∀ r, exec i s0 = .fault r →
      step s = .next (State.settle { s0 with faulted := true, results := s0.results ++ [.faulted r] })) ∧
    (∀ r, exec i s0 = .refused r →
      step s = .next (State.settle { s0 with refused := true, results := s0.results ++ [.refused r] }))

/-- 00_scope.md R16: the engine acts only inside a host transaction. A step that presents none writes nothing to any `TX`,
and leaves every instance as it was; the only other instance there can be after it is one just constructed. -/
def Obligations.EngineActsOnlyInsideAHostTransaction : Prop :=
  ∀ s s' : State, (∀ bytes late, s.agenda.head? ≠ some (.host bytes late)) → step s = .next s' →
    (∀ T, s'.tx T = s.tx T) ∧ (∀ b ∈ s'.toBlock :: s'.peers, b = Block.reset ∨ b ∈ s.toBlock :: s.peers) ∧
      s'.params = s.params ∧ s'.arriving = s.arriving

/-- 42_framing.md R141, 20_memory.md R71: what is still on its way when a transaction has ended reaches `RX` after the bytes
already there, and nothing else changes. -/
def Obligations.LateBytesReachTheReceiveQueue : Prop :=
  ∀ s : State, s.settle.arriving = [] ∧ s.settle = { s with arriving := [], wires := s.settle.wires } ∧
    (∀ T, s.transport = some T → s.settle.rx T = s.rx T ++ s.arriving ∧ s.settle.tx T = s.tx T ∧
      OtherWiresSame s s.settle T) ∧
    (s.transport = none → s.settle.wires = s.wires)

/-- 60_exceptions.md R226: a transaction that ends in Fault or Refused leaves every state element as it was, writes nothing
to `TX`, reads nothing from `RX`, and sets the mark. That bytes still arriving reach the `RX` of a bound instance then, and
are dropped on an unbound one, is the model's choice (notes/assumptions/8.md), and so is the recorded result
(notes/assumptions/3.md). -/
def Obligations.FaultAndRefusalLeaveOnlyTheMark : Prop :=
  ∀ (s s0 : State) (rest : List Move) (bytes late after : List Byte) (i : Instr),
    s.agenda = .host bytes late :: rest → s.faulted = false → s.refused = false → decode .host bytes = .ok i after →
    s0 = { s with agenda := rest, arriving := late } →
    (∀ r, exec i s0 = .fault r → ∃ t, step s = .next t ∧
      t = { s0 with
        faulted := true, results := s.results ++ [.faulted r], arriving := [], wires := t.wires } ∧
      (∀ T, t.tx T = s.tx T) ∧ (∀ T, s.transport = some T → t.rx T = s.rx T ++ late) ∧
      (∀ T, s.transport ≠ some T → t.rx T = s.rx T)) ∧
    (∀ r, exec i s0 = .refused r → ∃ t, step s = .next t ∧
      t = { s0 with
        refused := true, results := s.results ++ [.refused r], arriving := [], wires := t.wires } ∧
      (∀ T, t.tx T = s.tx T) ∧ (∀ T, s.transport = some T → t.rx T = s.rx T ++ late) ∧
      (∀ T, s.transport ≠ some T → t.rx T = s.rx T))

/-- 10_state.md R52: no instruction that goes on writes a mark, so a mark, once set, stays set until the instance is
constructed anew. -/
def Obligations.InstructionsThatGoOnLeaveTheMarks : Prop :=
  ∀ (i : Instr) (s s' : State), exec i s = .next s' → s'.faulted = s.faulted ∧ s'.refused = s.refused

/-- 10_state.md R52, 60_exceptions.md R226, 70_reset_and_hazards.md R264: no step but a restart ends the run of an instance,
and a run that is not final never becomes final again. The instances after a step are those before it, in some order, but
for the one in hand, which is final only if it was final before, and for one that may have been constructed. -/
def Obligations.AMarkedRunIsNeverFinalAgain : Prop :=
  ∀ s s' : State, s.agenda.head? ≠ some .restart → step s = .next s' →
    ∃ (b : Block) (new : List Block), (s'.toBlock :: s'.peers).Perm (b :: (new ++ s.peers)) ∧
      (new = [] ∨ new = [Block.reset]) ∧ (b.final = true → s.toBlock.final = true)

/-- 10_state.md R52, 60_exceptions.md R226: an instance with a mark set takes no further transaction. That the machine stops
there, under the name `quiescent`, is the model's choice (notes/assumptions/3.md). -/
def Obligations.MarkedInstanceTakesNoTransaction : Prop :=
  ∀ (s : State) (rest : List Move) (bytes late : List Byte), s.agenda = .host bytes late :: rest →
    (s.faulted = true ∨ s.refused = true) → step s = .fault .quiescent

/-- 60_exceptions.md R238, 20_memory.md R71: between transactions the receiver's bytes go to the end of the `RX` of their
transport, and nothing else changes. -/
def Obligations.ReceiverAppendsBetweenTransactions : Prop :=
  ∀ (s : State) (T : Nat) (bytes : List Byte) (rest : List Move), s.agenda = .receiver T bytes :: rest →
    ∃ s', step s = .next s' ∧ s'.rx T = s.rx T ++ bytes ∧ s'.tx T = s.tx T ∧ OtherWiresSame s s' T ∧
      s' = { s with agenda := rest, wires := s'.wires }

/-- 10_state.md R50, R51, 70_reset_and_hazards.md R250, R252: the construction of an instance leaves it at its reset values
and touches no other instance and no transport; a restart loses the instance it replaces; and with nothing to do, nothing
happens. The acts themselves are the model's (notes/assumptions/4.md). -/
def Obligations.ConstructionLeavesResetValues : Prop :=
  ∀ (s : State) (rest : List Move),
    (s.agenda = .construct :: rest →
      step s = .next { s with toBlock := State.reset.toBlock, peers := s.toBlock :: s.peers, agenda := rest }) ∧
    (s.agenda = .restart :: rest → step s = .next { s with toBlock := State.reset.toBlock, agenda := rest }) ∧
    (∀ b bs, s.agenda = .turn :: rest → s.peers = b :: bs →
      step s = .next { s with toBlock := b, peers := bs ++ [s.toBlock], agenda := rest }) ∧
    (s.agenda = [] → step s = .next s)

/-- 10_state.md R42, 60_exceptions.md R240: the debug toggle changes nothing but `DIAG`: two states that differ only in the
toggle and the log give, but for these two, the same outcome, whatever instruction runs; and only SET_DEBUG writes it. -/
def Obligations.DebugToggleNeverAffectsProtocol : Prop :=
  ∀ (i : Instr) (s : State),
    seenThrough State.undebugged (exec i s) = seenThrough State.undebugged (exec i s.undebugged) ∧
    ∀ s', exec i s = .next s' → s'.debugEn ≠ s.debugEn → ∃ e, i = .hostSetDebug e

/-- 10_state.md R51, 60_exceptions.md R243: no instruction writes another instance, another transport, the parameters or
what is still to come; and none but INIT, which looks for its transport, reads another instance. -/
def Obligations.TransactionsTouchOnlyTheirInstance : Prop :=
  ∀ (i : Instr) (s : State),
    (∀ s', exec i s = .next s' → s'.peers = s.peers ∧ s'.params = s.params ∧ s'.agenda = s.agenda ∧
      ∀ T, s.transport ≠ some T → s'.rx T = s.rx T ∧ s'.tx T = s.tx T) ∧
    ((∀ T, i ≠ .hostInit T) → ∀ others : List Block,
      exec i { s with peers := others } = seenThrough (fun t => { t with peers := others }) (exec i s))

/-- 60_exceptions.md R233: no host transaction but POLL, and no table operation, writes a counter, the discovered flag or a
transport. -/
def Obligations.OnlyPollMovesCountersAndWires : Prop :=
  ∀ (i : Instr) (s s' : State), (i.port = .host ∨ i.port = .table) → i ≠ .hostPoll → exec i s = .next s' →
    s'.reqCount = s.reqCount ∧ s'.respCount = s.respCount ∧ s'.discovered = s.discovered ∧ AllWiresSame s s'

/-- 20_memory.md R70: after an upsert that is applied, a TYPE and a MEASUREMENT request to the type's address are answered
with the type and the value it stored. -/
def Obligations.UpsertedValueIsWhatIsAnswered : Prop :=
  ∀ (s : State) (T : Nat) (t : Byte) (v : Half), s.transport = some T →
    ((∃ (k : Fin CAP) (slot : Slot), s.slots[k] = some slot ∧ slot.type = t) ∨ ∃ k : Fin CAP, s.slots[k] = none) →
    ∃ (s1 s2 s3 : State) (addr : Nibble), exec (.hostUpsert t v) s = .next s1 ∧
      exec (.reqType addr (chk2 0x04 (0x9#4 ++ addr))) s1 = .next s2 ∧
      s2.tx T = s.tx T ++ typeResponse addr t ∧
      exec (.reqMeasurement addr (chk2 0x04 (0xA#4 ++ addr))) s2 = .next s3 ∧
      s3.tx T = s2.tx T ++ measurementResponse addr v

/-- 10_state.md R41, 43_dispatch.md R166: the discovered flag is never cleared, and only a DISCOVER request, run on its own
or by the POLL that frames it, sets it: of a POLL that sets it, the four oldest bytes of `RX` are a DISCOVER request. -/
def Obligations.DiscoveredIsPermanent : Prop :=
  ∀ (i : Instr) (s s' : State), exec i s = .next s' →
    (s.discovered = true → s'.discovered = true) ∧
    (s.discovered = false → s'.discovered = true →
      (∃ addr chk, i = .reqDiscover addr chk) ∨
      (i = .hostPoll ∧ ∃ (T : Nat) (f : Frame) (rest : List Byte) (addr : Nibble) (chk : Half), s.transport = some T ∧
        s.rx T = f.b0 :: f.b1 :: f.b2 :: f.b3 :: rest ∧ decodeFrame f = some (.reqDiscover addr chk)))
end

