-- ==== Sys2Proof/Laws/Codec.lean ====
section
/-! SUPPORT. Laws/Codec.lean: the fields and byte order of words (00_scope.md R18, 30_encoding.md R82, R83), and the operand
layouts read back. -/

namespace Sys2Proof.Machine

open Sys2Proof

theorem toNat_le16 (lo hi : Byte) : (le16 lo hi).toNat = lo.toNat + 256 * hi.toNat := by
  have h := BitVec.toNat_append hi lo
  rw [Nat.shiftLeft_eq, Nat.mul_comm, ← Nat.two_pow_add_eq_or_of_lt lo.isLt] at h
  show (hi ++ lo).toNat = _
  omega

theorem toNat_lo16 (v : Half) : (lo16 v).toNat = v.toNat % 256 := by simp [lo16]

theorem toNat_hi16 (v : Half) : (hi16 v).toNat = v.toNat / 256 := by
  have := v.isLt
  simp only [hi16, BitVec.extractLsb'_toNat, Nat.shiftRight_eq_div_pow]
  omega

theorem toNat_cmdAddr (cmd addr : Nibble) : (cmdAddr cmd addr).toNat = addr.toNat + 16 * cmd.toNat := by
  have h := BitVec.toNat_append cmd addr
  rw [Nat.shiftLeft_eq, Nat.mul_comm, ← Nat.two_pow_add_eq_or_of_lt addr.isLt] at h
  show (cmd ++ addr).toNat = _
  omega

theorem toNat_addrOf (b : Byte) : (addrOf b).toNat = b.toNat % 16 := by simp [addrOf]

theorem toNat_cmdOf (b : Byte) : (cmdOf b).toNat = b.toNat / 16 := by
  have := b.isLt
  simp only [cmdOf, BitVec.extractLsb'_toNat, Nat.shiftRight_eq_div_pow]
  omega

@[simp] theorem lo16_le16 (lo hi : Byte) : lo16 (le16 lo hi) = lo := by
  apply BitVec.eq_of_toNat_eq
  rw [toNat_lo16, toNat_le16]
  omega

@[simp] theorem hi16_le16 (lo hi : Byte) : hi16 (le16 lo hi) = hi := by
  apply BitVec.eq_of_toNat_eq
  rw [toNat_hi16, toNat_le16]
  omega

@[simp] theorem le16_lo16_hi16 (v : Half) : le16 (lo16 v) (hi16 v) = v := by
  apply BitVec.eq_of_toNat_eq
  rw [toNat_le16, toNat_lo16, toNat_hi16]
  omega

@[simp] theorem cmdOf_cmdAddr (cmd addr : Nibble) : cmdOf (cmdAddr cmd addr) = cmd := by
  apply BitVec.eq_of_toNat_eq
  rw [toNat_cmdOf, toNat_cmdAddr]
  omega

@[simp] theorem addrOf_cmdAddr (cmd addr : Nibble) : addrOf (cmdAddr cmd addr) = addr := by
  apply BitVec.eq_of_toNat_eq
  rw [toNat_addrOf, toNat_cmdAddr]
  omega

@[simp] theorem cmdAddr_cmdOf_addrOf (b : Byte) : cmdAddr (cmdOf b) (addrOf b) = b := by
  apply BitVec.eq_of_toNat_eq
  rw [toNat_cmdAddr, toNat_cmdOf, toNat_addrOf]
  omega

/-- `le16` as the spec writes it (00_scope.md R18). -/
theorem le16_eq_or_shift (lo hi : Byte) : le16 lo hi = lo.setWidth 16 ||| (hi.setWidth 16 <<< 8) := by
  apply BitVec.eq_of_toNat_eq
  have h1 := lo.isLt
  have h2 := hi.isLt
  rw [toNat_le16, BitVec.toNat_or, BitVec.toNat_shiftLeft, BitVec.toNat_setWidth, BitVec.toNat_setWidth,
    Nat.mod_eq_of_lt (a := lo.toNat) (by omega), Nat.mod_eq_of_lt (a := hi.toNat) (by omega),
    Nat.mod_eq_of_lt (a := hi.toNat <<< 8) (by rw [Nat.shiftLeft_eq]; omega), Nat.shiftLeft_eq,
    Nat.mul_comm hi.toNat, Nat.or_comm, ← Nat.two_pow_add_eq_or_of_lt h1]
  omega

@[simp] theorem rxChk_requestFrame (cmd addr : Nibble) (chk : Half) : rxChk (requestFrame cmd addr chk) = chk := by
  simp [rxChk, requestFrame]

@[simp] theorem addrOf_requestFrame (cmd addr : Nibble) (chk : Half) : addrOf (requestFrame cmd addr chk).b1 = addr := by
  simp [requestFrame]

@[simp] theorem cmdOf_requestFrame (cmd addr : Nibble) (chk : Half) : cmdOf (requestFrame cmd addr chk).b1 = cmd := by
  simp [requestFrame]

/-- Every frame with length byte 0x04 is the request frame of its fields. -/
theorem frame_eq_requestFrame (f : Frame) (h : f.b0 = LEN4) : f = requestFrame (cmdOf f.b1) (addrOf f.b1) (rxChk f) := by
  cases f
  simp_all [requestFrame, rxChk]

@[simp] theorem decodeUpsert_encodeUpsert (mk : Byte → Half → Instr) (t : Byte) (v : Half) (rest : List Byte) :
    decodeUpsert mk (encodeUpsert t v ++ rest) = .ok (mk t v) rest := by
  simp [decodeUpsert, encodeUpsert]

/-- A number operand is read back, whatever follows it. -/
theorem readNat_writeNatFuel (fuel n : Nat) (h : n ≤ fuel) (rest : List Byte) :
    readNat (writeNatFuel fuel n ++ rest) = some (n, rest) := by
  induction fuel generalizing n with
  | zero =>
    obtain rfl : n = 0 := Nat.le_zero.1 h
    simp [writeNatFuel, readNat]
  | succ fuel ih =>
    unfold writeNatFuel
    split
    next hn =>
      have : n % 256 = n := Nat.mod_eq_of_lt (by omega)
      simp [readNat, this, hn]
    next hn =>
      have hlow : (128 + n % 128) % 256 = 128 + n % 128 := Nat.mod_eq_of_lt (by omega)
      have hge : ¬128 + n % 128 < 128 := by omega
      simp only [List.cons_append, readNat, BitVec.toNat_ofNat, Nat.reducePow, hlow, if_neg hge]
      rw [ih (n / 128) (by omega)]
      simp only [Option.some.injEq, Prod.mk.injEq, and_true]
      omega

@[simp] theorem readNat_writeNat (n : Nat) (rest : List Byte) : readNat (writeNat n ++ rest) = some (n, rest) :=
  readNat_writeNatFuel n n (Nat.le_refl n) rest

@[simp] theorem intOfCode_intCode (z : Int) : intOfCode (intCode z) = z := by
  unfold intOfCode intCode
  cases z with
  | ofNat n => simp
  | negSucc n =>
    have h1 : (2 * n + 1) % 2 = 1 := by omega
    have h2 : (2 * n + 1) / 2 = n := by omega
    simp [h1, h2]

/-- A rational operand is read back, whatever follows it. -/
@[simp] theorem readRat_writeRat (x : Rat) (rest : List Byte) : readRat (writeRat x ++ rest) = some (x, rest) := by
  have hd : x.den - 1 + 1 = x.den := Nat.sub_add_cancel x.den_pos
  simp [readRat, writeRat, List.append_assoc, hd, Rat.mkRat_self]

@[simp] theorem decodeReading_encodeReading (mk : Reading → Instr) (x : Reading) (rest : List Byte) :
    decodeReading mk (encodeReading x ++ rest) = .ok (mk x) rest := by
  cases x <;> simp [decodeReading, encodeReading]

@[simp] theorem kindOfSelector_kindSelector (k : Kind) : kindOfSelector (kindSelector k) = some k := by
  cases k <;> rfl

end Sys2Proof.Machine
end

