-- ==== Sys2Proof/Laws/State.lean ====
section
/-! SUPPORT. Laws/State.lean: one lemma for each field of `State` and each shared update, so that no later proof unfolds
a record update. -/

namespace Sys2Proof.Machine

open Sys2Proof

/-- Two states with equal fields are equal. -/
theorem State.eq_of_fields {s t : State} (h0 : s.slots = t.slots)
    (h1 : s.reqCount = t.reqCount)
    (h2 : s.respCount = t.respCount)
    (h3 : s.discovered = t.discovered)
    (h4 : s.debugEn = t.debugEn)
    (h5 : s.transport = t.transport)
    (h6 : s.fsm = t.fsm)
    (h7 : s.frame = t.frame)
    (h8 : s.faulted = t.faulted)
    (h9 : s.refused = t.refused)
    (h10 : s.diag = t.diag)
    (h11 : s.results = t.results)
    (h12 : s.peers = t.peers)
    (h13 : s.wires = t.wires)
    (h14 : s.arriving = t.arriving)
    (h15 : s.agenda = t.agenda)
    (h16 : s.params = t.params) : s = t := by
  obtain ⟨⟨_, _, _, _, _, _, _, _, _, _, _, _⟩, _, _, _, _, _⟩ := s
  obtain ⟨⟨_, _, _, _, _, _, _, _, _, _, _, _⟩, _, _, _, _, _⟩ := t
  simp only at h0 h1 h2 h3 h4 h5 h6 h7 h8 h9 h10 h11 h12 h13 h14 h15 h16
  subst h0 h1 h2 h3 h4 h5 h6 h7 h8 h9 h10 h11 h12 h13 h14 h15 h16
  rfl

/-! ## What changes the request counter (43_dispatch.md R160) -/

@[simp] theorem State.countRequest_slots (s : State) :
    s.countRequest.slots = s.slots := rfl
@[simp] theorem State.countRequest_reqCount (s : State) :
    s.countRequest.reqCount = nextCount s.params s.reqCount := rfl
@[simp] theorem State.countRequest_respCount (s : State) :
    s.countRequest.respCount = s.respCount := rfl
@[simp] theorem State.countRequest_discovered (s : State) :
    s.countRequest.discovered = s.discovered := rfl
@[simp] theorem State.countRequest_debugEn (s : State) :
    s.countRequest.debugEn = s.debugEn := rfl
@[simp] theorem State.countRequest_transport (s : State) :
    s.countRequest.transport = s.transport := rfl
@[simp] theorem State.countRequest_fsm (s : State) :
    s.countRequest.fsm = s.fsm := rfl
@[simp] theorem State.countRequest_frame (s : State) :
    s.countRequest.frame = s.frame := rfl
@[simp] theorem State.countRequest_faulted (s : State) :
    s.countRequest.faulted = s.faulted := rfl
@[simp] theorem State.countRequest_refused (s : State) :
    s.countRequest.refused = s.refused := rfl
@[simp] theorem State.countRequest_diag (s : State) :
    s.countRequest.diag = s.diag := rfl
@[simp] theorem State.countRequest_results (s : State) :
    s.countRequest.results = s.results := rfl
@[simp] theorem State.countRequest_peers (s : State) :
    s.countRequest.peers = s.peers := rfl
@[simp] theorem State.countRequest_wires (s : State) :
    s.countRequest.wires = s.wires := rfl
@[simp] theorem State.countRequest_arriving (s : State) :
    s.countRequest.arriving = s.arriving := rfl
@[simp] theorem State.countRequest_agenda (s : State) :
    s.countRequest.agenda = s.agenda := rfl
@[simp] theorem State.countRequest_params (s : State) :
    s.countRequest.params = s.params := rfl

/-! ## What changes the response counter (43_dispatch.md R175) -/

@[simp] theorem State.countResponse_slots (s : State) :
    s.countResponse.slots = s.slots := rfl
@[simp] theorem State.countResponse_reqCount (s : State) :
    s.countResponse.reqCount = s.reqCount := rfl
@[simp] theorem State.countResponse_respCount (s : State) :
    s.countResponse.respCount = nextCount s.params s.respCount := rfl
@[simp] theorem State.countResponse_discovered (s : State) :
    s.countResponse.discovered = s.discovered := rfl
@[simp] theorem State.countResponse_debugEn (s : State) :
    s.countResponse.debugEn = s.debugEn := rfl
@[simp] theorem State.countResponse_transport (s : State) :
    s.countResponse.transport = s.transport := rfl
@[simp] theorem State.countResponse_fsm (s : State) :
    s.countResponse.fsm = s.fsm := rfl
@[simp] theorem State.countResponse_frame (s : State) :
    s.countResponse.frame = s.frame := rfl
@[simp] theorem State.countResponse_faulted (s : State) :
    s.countResponse.faulted = s.faulted := rfl
@[simp] theorem State.countResponse_refused (s : State) :
    s.countResponse.refused = s.refused := rfl
@[simp] theorem State.countResponse_diag (s : State) :
    s.countResponse.diag = s.diag := rfl
@[simp] theorem State.countResponse_results (s : State) :
    s.countResponse.results = s.results := rfl
@[simp] theorem State.countResponse_peers (s : State) :
    s.countResponse.peers = s.peers := rfl
@[simp] theorem State.countResponse_wires (s : State) :
    s.countResponse.wires = s.wires := rfl
@[simp] theorem State.countResponse_arriving (s : State) :
    s.countResponse.arriving = s.arriving := rfl
@[simp] theorem State.countResponse_agenda (s : State) :
    s.countResponse.agenda = s.agenda := rfl
@[simp] theorem State.countResponse_params (s : State) :
    s.countResponse.params = s.params := rfl

/-! ## What changes the discovered flag (43_dispatch.md R166) -/

@[simp] theorem State.setDiscovered_slots (s : State) :
    s.setDiscovered.slots = s.slots := rfl
@[simp] theorem State.setDiscovered_reqCount (s : State) :
    s.setDiscovered.reqCount = s.reqCount := rfl
@[simp] theorem State.setDiscovered_respCount (s : State) :
    s.setDiscovered.respCount = s.respCount := rfl
@[simp] theorem State.setDiscovered_discovered (s : State) :
    s.setDiscovered.discovered = true := rfl
@[simp] theorem State.setDiscovered_debugEn (s : State) :
    s.setDiscovered.debugEn = s.debugEn := rfl
@[simp] theorem State.setDiscovered_transport (s : State) :
    s.setDiscovered.transport = s.transport := rfl
@[simp] theorem State.setDiscovered_fsm (s : State) :
    s.setDiscovered.fsm = s.fsm := rfl
@[simp] theorem State.setDiscovered_frame (s : State) :
    s.setDiscovered.frame = s.frame := rfl
@[simp] theorem State.setDiscovered_faulted (s : State) :
    s.setDiscovered.faulted = s.faulted := rfl
@[simp] theorem State.setDiscovered_refused (s : State) :
    s.setDiscovered.refused = s.refused := rfl
@[simp] theorem State.setDiscovered_diag (s : State) :
    s.setDiscovered.diag = s.diag := rfl
@[simp] theorem State.setDiscovered_results (s : State) :
    s.setDiscovered.results = s.results := rfl
@[simp] theorem State.setDiscovered_peers (s : State) :
    s.setDiscovered.peers = s.peers := rfl
@[simp] theorem State.setDiscovered_wires (s : State) :
    s.setDiscovered.wires = s.wires := rfl
@[simp] theorem State.setDiscovered_arriving (s : State) :
    s.setDiscovered.arriving = s.arriving := rfl
@[simp] theorem State.setDiscovered_agenda (s : State) :
    s.setDiscovered.agenda = s.agenda := rfl
@[simp] theorem State.setDiscovered_params (s : State) :
    s.setDiscovered.params = s.params := rfl

/-! ## What changes the debug toggle (44_host_interface.md R199) -/

@[simp] theorem State.setDebug_slots (s : State) (e : Bool) :
    (s.setDebug e).slots = s.slots := rfl
@[simp] theorem State.setDebug_reqCount (s : State) (e : Bool) :
    (s.setDebug e).reqCount = s.reqCount := rfl
@[simp] theorem State.setDebug_respCount (s : State) (e : Bool) :
    (s.setDebug e).respCount = s.respCount := rfl
@[simp] theorem State.setDebug_discovered (s : State) (e : Bool) :
    (s.setDebug e).discovered = s.discovered := rfl
@[simp] theorem State.setDebug_debugEn (s : State) (e : Bool) :
    (s.setDebug e).debugEn = e := rfl
@[simp] theorem State.setDebug_transport (s : State) (e : Bool) :
    (s.setDebug e).transport = s.transport := rfl
@[simp] theorem State.setDebug_fsm (s : State) (e : Bool) :
    (s.setDebug e).fsm = s.fsm := rfl
@[simp] theorem State.setDebug_frame (s : State) (e : Bool) :
    (s.setDebug e).frame = s.frame := rfl
@[simp] theorem State.setDebug_faulted (s : State) (e : Bool) :
    (s.setDebug e).faulted = s.faulted := rfl
@[simp] theorem State.setDebug_refused (s : State) (e : Bool) :
    (s.setDebug e).refused = s.refused := rfl
@[simp] theorem State.setDebug_diag (s : State) (e : Bool) :
    (s.setDebug e).diag = s.diag := rfl
@[simp] theorem State.setDebug_results (s : State) (e : Bool) :
    (s.setDebug e).results = s.results := rfl
@[simp] theorem State.setDebug_peers (s : State) (e : Bool) :
    (s.setDebug e).peers = s.peers := rfl
@[simp] theorem State.setDebug_wires (s : State) (e : Bool) :
    (s.setDebug e).wires = s.wires := rfl
@[simp] theorem State.setDebug_arriving (s : State) (e : Bool) :
    (s.setDebug e).arriving = s.arriving := rfl
@[simp] theorem State.setDebug_agenda (s : State) (e : Bool) :
    (s.setDebug e).agenda = s.agenda := rfl
@[simp] theorem State.setDebug_params (s : State) (e : Bool) :
    (s.setDebug e).params = s.params := rfl

/-! ## What changes one receive queue -/

@[simp] theorem State.setRx_slots (s : State) (T : Nat) (bs : List Byte) :
    (s.setRx T bs).slots = s.slots := rfl
@[simp] theorem State.setRx_reqCount (s : State) (T : Nat) (bs : List Byte) :
    (s.setRx T bs).reqCount = s.reqCount := rfl
@[simp] theorem State.setRx_respCount (s : State) (T : Nat) (bs : List Byte) :
    (s.setRx T bs).respCount = s.respCount := rfl
@[simp] theorem State.setRx_discovered (s : State) (T : Nat) (bs : List Byte) :
    (s.setRx T bs).discovered = s.discovered := rfl
@[simp] theorem State.setRx_debugEn (s : State) (T : Nat) (bs : List Byte) :
    (s.setRx T bs).debugEn = s.debugEn := rfl
@[simp] theorem State.setRx_transport (s : State) (T : Nat) (bs : List Byte) :
    (s.setRx T bs).transport = s.transport := rfl
@[simp] theorem State.setRx_fsm (s : State) (T : Nat) (bs : List Byte) :
    (s.setRx T bs).fsm = s.fsm := rfl
@[simp] theorem State.setRx_frame (s : State) (T : Nat) (bs : List Byte) :
    (s.setRx T bs).frame = s.frame := rfl
@[simp] theorem State.setRx_faulted (s : State) (T : Nat) (bs : List Byte) :
    (s.setRx T bs).faulted = s.faulted := rfl
@[simp] theorem State.setRx_refused (s : State) (T : Nat) (bs : List Byte) :
    (s.setRx T bs).refused = s.refused := rfl
@[simp] theorem State.setRx_diag (s : State) (T : Nat) (bs : List Byte) :
    (s.setRx T bs).diag = s.diag := rfl
@[simp] theorem State.setRx_results (s : State) (T : Nat) (bs : List Byte) :
    (s.setRx T bs).results = s.results := rfl
@[simp] theorem State.setRx_peers (s : State) (T : Nat) (bs : List Byte) :
    (s.setRx T bs).peers = s.peers := rfl
@[simp] theorem State.setRx_wires (s : State) (T : Nat) (bs : List Byte) :
    (s.setRx T bs).wires = wirePut s.wires T { wireGet s.wires T with rx := bs } := rfl
@[simp] theorem State.setRx_arriving (s : State) (T : Nat) (bs : List Byte) :
    (s.setRx T bs).arriving = s.arriving := rfl
@[simp] theorem State.setRx_agenda (s : State) (T : Nat) (bs : List Byte) :
    (s.setRx T bs).agenda = s.agenda := rfl
@[simp] theorem State.setRx_params (s : State) (T : Nat) (bs : List Byte) :
    (s.setRx T bs).params = s.params := rfl

/-! ## What changes `TxWrite` (60_exceptions.md R236) -/

@[simp] theorem State.txWrite_slots (s : State) (T : Nat) (r : List Byte) :
    (s.txWrite T r).slots = s.slots := rfl
@[simp] theorem State.txWrite_reqCount (s : State) (T : Nat) (r : List Byte) :
    (s.txWrite T r).reqCount = s.reqCount := rfl
@[simp] theorem State.txWrite_respCount (s : State) (T : Nat) (r : List Byte) :
    (s.txWrite T r).respCount = s.respCount := rfl
@[simp] theorem State.txWrite_discovered (s : State) (T : Nat) (r : List Byte) :
    (s.txWrite T r).discovered = s.discovered := rfl
@[simp] theorem State.txWrite_debugEn (s : State) (T : Nat) (r : List Byte) :
    (s.txWrite T r).debugEn = s.debugEn := rfl
@[simp] theorem State.txWrite_transport (s : State) (T : Nat) (r : List Byte) :
    (s.txWrite T r).transport = s.transport := rfl
@[simp] theorem State.txWrite_fsm (s : State) (T : Nat) (r : List Byte) :
    (s.txWrite T r).fsm = s.fsm := rfl
@[simp] theorem State.txWrite_frame (s : State) (T : Nat) (r : List Byte) :
    (s.txWrite T r).frame = s.frame := rfl
@[simp] theorem State.txWrite_faulted (s : State) (T : Nat) (r : List Byte) :
    (s.txWrite T r).faulted = s.faulted := rfl
@[simp] theorem State.txWrite_refused (s : State) (T : Nat) (r : List Byte) :
    (s.txWrite T r).refused = s.refused := rfl
@[simp] theorem State.txWrite_diag (s : State) (T : Nat) (r : List Byte) :
    (s.txWrite T r).diag = s.diag := rfl
@[simp] theorem State.txWrite_results (s : State) (T : Nat) (r : List Byte) :
    (s.txWrite T r).results = s.results := rfl
@[simp] theorem State.txWrite_peers (s : State) (T : Nat) (r : List Byte) :
    (s.txWrite T r).peers = s.peers := rfl
@[simp] theorem State.txWrite_wires (s : State) (T : Nat) (r : List Byte) :
    (s.txWrite T r).wires = wirePut s.wires T { wireGet s.wires T with tx := s.tx T ++ r } := rfl
@[simp] theorem State.txWrite_arriving (s : State) (T : Nat) (r : List Byte) :
    (s.txWrite T r).arriving = s.arriving := rfl
@[simp] theorem State.txWrite_agenda (s : State) (T : Nat) (r : List Byte) :
    (s.txWrite T r).agenda = s.agenda := rfl
@[simp] theorem State.txWrite_params (s : State) (T : Nat) (r : List Byte) :
    (s.txWrite T r).params = s.params := rfl

/-! ## What changes the return of a result -/

@[simp] theorem State.answer_slots (s : State) (r : Result) :
    (s.answer r).slots = s.slots := rfl
@[simp] theorem State.answer_reqCount (s : State) (r : Result) :
    (s.answer r).reqCount = s.reqCount := rfl
@[simp] theorem State.answer_respCount (s : State) (r : Result) :
    (s.answer r).respCount = s.respCount := rfl
@[simp] theorem State.answer_discovered (s : State) (r : Result) :
    (s.answer r).discovered = s.discovered := rfl
@[simp] theorem State.answer_debugEn (s : State) (r : Result) :
    (s.answer r).debugEn = s.debugEn := rfl
@[simp] theorem State.answer_transport (s : State) (r : Result) :
    (s.answer r).transport = s.transport := rfl
@[simp] theorem State.answer_fsm (s : State) (r : Result) :
    (s.answer r).fsm = s.fsm := rfl
@[simp] theorem State.answer_frame (s : State) (r : Result) :
    (s.answer r).frame = s.frame := rfl
@[simp] theorem State.answer_faulted (s : State) (r : Result) :
    (s.answer r).faulted = s.faulted := rfl
@[simp] theorem State.answer_refused (s : State) (r : Result) :
    (s.answer r).refused = s.refused := rfl
@[simp] theorem State.answer_diag (s : State) (r : Result) :
    (s.answer r).diag = s.diag := rfl
@[simp] theorem State.answer_results (s : State) (r : Result) :
    (s.answer r).results = s.results ++ [r] := rfl
@[simp] theorem State.answer_peers (s : State) (r : Result) :
    (s.answer r).peers = s.peers := rfl
@[simp] theorem State.answer_wires (s : State) (r : Result) :
    (s.answer r).wires = s.wires := rfl
@[simp] theorem State.answer_arriving (s : State) (r : Result) :
    (s.answer r).arriving = s.arriving := rfl
@[simp] theorem State.answer_agenda (s : State) (r : Result) :
    (s.answer r).agenda = s.agenda := rfl
@[simp] theorem State.answer_params (s : State) (r : Result) :
    (s.answer r).params = s.params := rfl

/-! ## What changes `Diag` (60_exceptions.md R240) -/

@[simp] theorem State.offer_slots (s : State) (e : DiagEvent) :
    (s.offer e).slots = s.slots := by unfold State.offer; split <;> rfl
@[simp] theorem State.offer_reqCount (s : State) (e : DiagEvent) :
    (s.offer e).reqCount = s.reqCount := by unfold State.offer; split <;> rfl
@[simp] theorem State.offer_respCount (s : State) (e : DiagEvent) :
    (s.offer e).respCount = s.respCount := by unfold State.offer; split <;> rfl
@[simp] theorem State.offer_discovered (s : State) (e : DiagEvent) :
    (s.offer e).discovered = s.discovered := by unfold State.offer; split <;> rfl
@[simp] theorem State.offer_debugEn (s : State) (e : DiagEvent) :
    (s.offer e).debugEn = s.debugEn := by unfold State.offer; split <;> rfl
@[simp] theorem State.offer_transport (s : State) (e : DiagEvent) :
    (s.offer e).transport = s.transport := by unfold State.offer; split <;> rfl
@[simp] theorem State.offer_fsm (s : State) (e : DiagEvent) :
    (s.offer e).fsm = s.fsm := by unfold State.offer; split <;> rfl
@[simp] theorem State.offer_frame (s : State) (e : DiagEvent) :
    (s.offer e).frame = s.frame := by unfold State.offer; split <;> rfl
@[simp] theorem State.offer_faulted (s : State) (e : DiagEvent) :
    (s.offer e).faulted = s.faulted := by unfold State.offer; split <;> rfl
@[simp] theorem State.offer_refused (s : State) (e : DiagEvent) :
    (s.offer e).refused = s.refused := by unfold State.offer; split <;> rfl
@[simp] theorem State.offer_diag (s : State) (e : DiagEvent) :
    (s.offer e).diag = if s.debugEn then s.diag ++ [e] else s.diag := by unfold State.offer; split <;> rfl
@[simp] theorem State.offer_results (s : State) (e : DiagEvent) :
    (s.offer e).results = s.results := by unfold State.offer; split <;> rfl
@[simp] theorem State.offer_peers (s : State) (e : DiagEvent) :
    (s.offer e).peers = s.peers := by unfold State.offer; split <;> rfl
@[simp] theorem State.offer_wires (s : State) (e : DiagEvent) :
    (s.offer e).wires = s.wires := by unfold State.offer; split <;> rfl
@[simp] theorem State.offer_arriving (s : State) (e : DiagEvent) :
    (s.offer e).arriving = s.arriving := by unfold State.offer; split <;> rfl
@[simp] theorem State.offer_agenda (s : State) (e : DiagEvent) :
    (s.offer e).agenda = s.agenda := by unfold State.offer; split <;> rfl
@[simp] theorem State.offer_params (s : State) (e : DiagEvent) :
    (s.offer e).params = s.params := by unfold State.offer; split <;> rfl

/-! ## What changes `RxDrain` (60_exceptions.md R236) -/

@[simp] theorem State.rxDrain_slots (s : State) (T : Nat) :
    (s.rxDrain T).slots = s.slots := rfl
@[simp] theorem State.rxDrain_reqCount (s : State) (T : Nat) :
    (s.rxDrain T).reqCount = s.reqCount := rfl
@[simp] theorem State.rxDrain_respCount (s : State) (T : Nat) :
    (s.rxDrain T).respCount = s.respCount := rfl
@[simp] theorem State.rxDrain_discovered (s : State) (T : Nat) :
    (s.rxDrain T).discovered = s.discovered := rfl
@[simp] theorem State.rxDrain_debugEn (s : State) (T : Nat) :
    (s.rxDrain T).debugEn = s.debugEn := rfl
@[simp] theorem State.rxDrain_transport (s : State) (T : Nat) :
    (s.rxDrain T).transport = s.transport := rfl
@[simp] theorem State.rxDrain_fsm (s : State) (T : Nat) :
    (s.rxDrain T).fsm = s.fsm := rfl
@[simp] theorem State.rxDrain_frame (s : State) (T : Nat) :
    (s.rxDrain T).frame = s.frame := rfl
@[simp] theorem State.rxDrain_faulted (s : State) (T : Nat) :
    (s.rxDrain T).faulted = s.faulted := rfl
@[simp] theorem State.rxDrain_refused (s : State) (T : Nat) :
    (s.rxDrain T).refused = s.refused := rfl
@[simp] theorem State.rxDrain_diag (s : State) (T : Nat) :
    (s.rxDrain T).diag = s.diag := rfl
@[simp] theorem State.rxDrain_results (s : State) (T : Nat) :
    (s.rxDrain T).results = s.results := rfl
@[simp] theorem State.rxDrain_peers (s : State) (T : Nat) :
    (s.rxDrain T).peers = s.peers := rfl
@[simp] theorem State.rxDrain_wires (s : State) (T : Nat) :
    (s.rxDrain T).wires = wirePut s.wires T { wireGet s.wires T with rx := [] } := rfl
@[simp] theorem State.rxDrain_arriving (s : State) (T : Nat) :
    (s.rxDrain T).arriving = s.arriving := rfl
@[simp] theorem State.rxDrain_agenda (s : State) (T : Nat) :
    (s.rxDrain T).agenda = s.agenda := rfl
@[simp] theorem State.rxDrain_params (s : State) (T : Nat) :
    (s.rxDrain T).params = s.params := rfl

/-! ## What changes the receiver's append (60_exceptions.md R238) -/

@[simp] theorem State.rxAppend_slots (s : State) (T : Nat) (bs : List Byte) :
    (s.rxAppend T bs).slots = s.slots := rfl
@[simp] theorem State.rxAppend_reqCount (s : State) (T : Nat) (bs : List Byte) :
    (s.rxAppend T bs).reqCount = s.reqCount := rfl
@[simp] theorem State.rxAppend_respCount (s : State) (T : Nat) (bs : List Byte) :
    (s.rxAppend T bs).respCount = s.respCount := rfl
@[simp] theorem State.rxAppend_discovered (s : State) (T : Nat) (bs : List Byte) :
    (s.rxAppend T bs).discovered = s.discovered := rfl
@[simp] theorem State.rxAppend_debugEn (s : State) (T : Nat) (bs : List Byte) :
    (s.rxAppend T bs).debugEn = s.debugEn := rfl
@[simp] theorem State.rxAppend_transport (s : State) (T : Nat) (bs : List Byte) :
    (s.rxAppend T bs).transport = s.transport := rfl
@[simp] theorem State.rxAppend_fsm (s : State) (T : Nat) (bs : List Byte) :
    (s.rxAppend T bs).fsm = s.fsm := rfl
@[simp] theorem State.rxAppend_frame (s : State) (T : Nat) (bs : List Byte) :
    (s.rxAppend T bs).frame = s.frame := rfl
@[simp] theorem State.rxAppend_faulted (s : State) (T : Nat) (bs : List Byte) :
    (s.rxAppend T bs).faulted = s.faulted := rfl
@[simp] theorem State.rxAppend_refused (s : State) (T : Nat) (bs : List Byte) :
    (s.rxAppend T bs).refused = s.refused := rfl
@[simp] theorem State.rxAppend_diag (s : State) (T : Nat) (bs : List Byte) :
    (s.rxAppend T bs).diag = s.diag := rfl
@[simp] theorem State.rxAppend_results (s : State) (T : Nat) (bs : List Byte) :
    (s.rxAppend T bs).results = s.results := rfl
@[simp] theorem State.rxAppend_peers (s : State) (T : Nat) (bs : List Byte) :
    (s.rxAppend T bs).peers = s.peers := rfl
@[simp] theorem State.rxAppend_wires (s : State) (T : Nat) (bs : List Byte) :
    (s.rxAppend T bs).wires = wirePut s.wires T { wireGet s.wires T with rx := s.rx T ++ bs } := rfl
@[simp] theorem State.rxAppend_arriving (s : State) (T : Nat) (bs : List Byte) :
    (s.rxAppend T bs).arriving = s.arriving := rfl
@[simp] theorem State.rxAppend_agenda (s : State) (T : Nat) (bs : List Byte) :
    (s.rxAppend T bs).agenda = s.agenda := rfl
@[simp] theorem State.rxAppend_params (s : State) (T : Nat) (bs : List Byte) :
    (s.rxAppend T bs).params = s.params := rfl

/-! ## What changes the receiver's bytes arriving (42_framing.md R141) -/

@[simp] theorem State.arrive_slots (s : State) (T : Nat) :
    (s.arrive T).slots = s.slots := rfl
@[simp] theorem State.arrive_reqCount (s : State) (T : Nat) :
    (s.arrive T).reqCount = s.reqCount := rfl
@[simp] theorem State.arrive_respCount (s : State) (T : Nat) :
    (s.arrive T).respCount = s.respCount := rfl
@[simp] theorem State.arrive_discovered (s : State) (T : Nat) :
    (s.arrive T).discovered = s.discovered := rfl
@[simp] theorem State.arrive_debugEn (s : State) (T : Nat) :
    (s.arrive T).debugEn = s.debugEn := rfl
@[simp] theorem State.arrive_transport (s : State) (T : Nat) :
    (s.arrive T).transport = s.transport := rfl
@[simp] theorem State.arrive_fsm (s : State) (T : Nat) :
    (s.arrive T).fsm = s.fsm := rfl
@[simp] theorem State.arrive_frame (s : State) (T : Nat) :
    (s.arrive T).frame = s.frame := rfl
@[simp] theorem State.arrive_faulted (s : State) (T : Nat) :
    (s.arrive T).faulted = s.faulted := rfl
@[simp] theorem State.arrive_refused (s : State) (T : Nat) :
    (s.arrive T).refused = s.refused := rfl
@[simp] theorem State.arrive_diag (s : State) (T : Nat) :
    (s.arrive T).diag = s.diag := rfl
@[simp] theorem State.arrive_results (s : State) (T : Nat) :
    (s.arrive T).results = s.results := rfl
@[simp] theorem State.arrive_peers (s : State) (T : Nat) :
    (s.arrive T).peers = s.peers := rfl
@[simp] theorem State.arrive_wires (s : State) (T : Nat) :
    (s.arrive T).wires = wirePut s.wires T { wireGet s.wires T with rx := s.rx T ++ s.arriving } := rfl
@[simp] theorem State.arrive_arriving (s : State) (T : Nat) :
    (s.arrive T).arriving = [] := rfl
@[simp] theorem State.arrive_agenda (s : State) (T : Nat) :
    (s.arrive T).agenda = s.agenda := rfl
@[simp] theorem State.arrive_params (s : State) (T : Nat) :
    (s.arrive T).params = s.params := rfl

/-! ## What changes EMIT (43_dispatch.md R164) -/

@[simp] theorem State.emit_slots (s : State) (T : Nat) (r : List Byte) :
    (s.emit T r).slots = s.slots := by simp [State.emit]
@[simp] theorem State.emit_reqCount (s : State) (T : Nat) (r : List Byte) :
    (s.emit T r).reqCount = s.reqCount := by simp [State.emit]
@[simp] theorem State.emit_respCount (s : State) (T : Nat) (r : List Byte) :
    (s.emit T r).respCount = nextCount s.params s.respCount := by simp [State.emit]
@[simp] theorem State.emit_discovered (s : State) (T : Nat) (r : List Byte) :
    (s.emit T r).discovered = s.discovered := by simp [State.emit]
@[simp] theorem State.emit_debugEn (s : State) (T : Nat) (r : List Byte) :
    (s.emit T r).debugEn = s.debugEn := by simp [State.emit]
@[simp] theorem State.emit_transport (s : State) (T : Nat) (r : List Byte) :
    (s.emit T r).transport = s.transport := by simp [State.emit]
@[simp] theorem State.emit_fsm (s : State) (T : Nat) (r : List Byte) :
    (s.emit T r).fsm = s.fsm := by simp [State.emit]
@[simp] theorem State.emit_frame (s : State) (T : Nat) (r : List Byte) :
    (s.emit T r).frame = s.frame := by simp [State.emit]
@[simp] theorem State.emit_faulted (s : State) (T : Nat) (r : List Byte) :
    (s.emit T r).faulted = s.faulted := by simp [State.emit]
@[simp] theorem State.emit_refused (s : State) (T : Nat) (r : List Byte) :
    (s.emit T r).refused = s.refused := by simp [State.emit]
@[simp] theorem State.emit_diag (s : State) (T : Nat) (r : List Byte) :
    (s.emit T r).diag = if s.debugEn then s.diag ++ [.responseSent r] else s.diag := by unfold State.emit; rw [State.offer_diag]; rfl
@[simp] theorem State.emit_results (s : State) (T : Nat) (r : List Byte) :
    (s.emit T r).results = s.results := by simp [State.emit]
@[simp] theorem State.emit_peers (s : State) (T : Nat) (r : List Byte) :
    (s.emit T r).peers = s.peers := by simp [State.emit]
@[simp] theorem State.emit_wires (s : State) (T : Nat) (r : List Byte) :
    (s.emit T r).wires = wirePut s.wires T { wireGet s.wires T with tx := s.tx T ++ r } := by simp [State.emit]
@[simp] theorem State.emit_arriving (s : State) (T : Nat) (r : List Byte) :
    (s.emit T r).arriving = s.arriving := by simp [State.emit]
@[simp] theorem State.emit_agenda (s : State) (T : Nat) (r : List Byte) :
    (s.emit T r).agenda = s.agenda := by simp [State.emit]
@[simp] theorem State.emit_params (s : State) (T : Nat) (r : List Byte) :
    (s.emit T r).params = s.params := by simp [State.emit]

/-! ## What changes the beginning of a frame's handling (42_framing.md R142) -/

@[simp] theorem State.beginFrame_slots (s : State) (T : Nat) (f : Frame) :
    (s.beginFrame T f).slots = s.slots := by simp [State.beginFrame]
@[simp] theorem State.beginFrame_reqCount (s : State) (T : Nat) (f : Frame) :
    (s.beginFrame T f).reqCount = s.reqCount := by simp [State.beginFrame]
@[simp] theorem State.beginFrame_respCount (s : State) (T : Nat) (f : Frame) :
    (s.beginFrame T f).respCount = s.respCount := by simp [State.beginFrame]
@[simp] theorem State.beginFrame_discovered (s : State) (T : Nat) (f : Frame) :
    (s.beginFrame T f).discovered = s.discovered := by simp [State.beginFrame]
@[simp] theorem State.beginFrame_debugEn (s : State) (T : Nat) (f : Frame) :
    (s.beginFrame T f).debugEn = s.debugEn := by simp [State.beginFrame]
@[simp] theorem State.beginFrame_transport (s : State) (T : Nat) (f : Frame) :
    (s.beginFrame T f).transport = s.transport := by simp [State.beginFrame]
@[simp] theorem State.beginFrame_fsm (s : State) (T : Nat) (f : Frame) :
    (s.beginFrame T f).fsm = .processing := by simp [State.beginFrame]
@[simp] theorem State.beginFrame_frame (s : State) (T : Nat) (f : Frame) :
    (s.beginFrame T f).frame = some f := by simp [State.beginFrame]
@[simp] theorem State.beginFrame_faulted (s : State) (T : Nat) (f : Frame) :
    (s.beginFrame T f).faulted = s.faulted := by simp [State.beginFrame]
@[simp] theorem State.beginFrame_refused (s : State) (T : Nat) (f : Frame) :
    (s.beginFrame T f).refused = s.refused := by simp [State.beginFrame]
@[simp] theorem State.beginFrame_diag (s : State) (T : Nat) (f : Frame) :
    (s.beginFrame T f).diag = if s.debugEn then s.diag ++ [.frameSeen f] else s.diag := by simp [State.beginFrame]
@[simp] theorem State.beginFrame_results (s : State) (T : Nat) (f : Frame) :
    (s.beginFrame T f).results = s.results := by simp [State.beginFrame]
@[simp] theorem State.beginFrame_peers (s : State) (T : Nat) (f : Frame) :
    (s.beginFrame T f).peers = s.peers := by simp [State.beginFrame]
@[simp] theorem State.beginFrame_wires (s : State) (T : Nat) (f : Frame) :
    (s.beginFrame T f).wires = wirePut s.wires T { wireGet s.wires T with rx := s.rx T ++ s.arriving } := by simp [State.beginFrame, State.rx]
@[simp] theorem State.beginFrame_arriving (s : State) (T : Nat) (f : Frame) :
    (s.beginFrame T f).arriving = [] := by simp [State.beginFrame]
@[simp] theorem State.beginFrame_agenda (s : State) (T : Nat) (f : Frame) :
    (s.beginFrame T f).agenda = s.agenda := by simp [State.beginFrame]
@[simp] theorem State.beginFrame_params (s : State) (T : Nat) (f : Frame) :
    (s.beginFrame T f).params = s.params := by simp [State.beginFrame]

/-! ## What changes the end of a frame's handling (42_framing.md R147, R148) -/

@[simp] theorem State.endFrame_slots (s : State) (T : Nat) :
    (s.endFrame T).slots = s.slots := rfl
@[simp] theorem State.endFrame_reqCount (s : State) (T : Nat) :
    (s.endFrame T).reqCount = s.reqCount := rfl
@[simp] theorem State.endFrame_respCount (s : State) (T : Nat) :
    (s.endFrame T).respCount = s.respCount := rfl
@[simp] theorem State.endFrame_discovered (s : State) (T : Nat) :
    (s.endFrame T).discovered = s.discovered := rfl
@[simp] theorem State.endFrame_debugEn (s : State) (T : Nat) :
    (s.endFrame T).debugEn = s.debugEn := rfl
@[simp] theorem State.endFrame_transport (s : State) (T : Nat) :
    (s.endFrame T).transport = s.transport := rfl
@[simp] theorem State.endFrame_fsm (s : State) (T : Nat) :
    (s.endFrame T).fsm = .idle := rfl
@[simp] theorem State.endFrame_frame (s : State) (T : Nat) :
    (s.endFrame T).frame = none := rfl
@[simp] theorem State.endFrame_faulted (s : State) (T : Nat) :
    (s.endFrame T).faulted = s.faulted := rfl
@[simp] theorem State.endFrame_refused (s : State) (T : Nat) :
    (s.endFrame T).refused = s.refused := rfl
@[simp] theorem State.endFrame_diag (s : State) (T : Nat) :
    (s.endFrame T).diag = s.diag := rfl
@[simp] theorem State.endFrame_results (s : State) (T : Nat) :
    (s.endFrame T).results = s.results := rfl
@[simp] theorem State.endFrame_peers (s : State) (T : Nat) :
    (s.endFrame T).peers = s.peers := rfl
@[simp] theorem State.endFrame_wires (s : State) (T : Nat) :
    (s.endFrame T).wires = wirePut s.wires T { wireGet s.wires T with rx := [] } := rfl
@[simp] theorem State.endFrame_arriving (s : State) (T : Nat) :
    (s.endFrame T).arriving = s.arriving := rfl
@[simp] theorem State.endFrame_agenda (s : State) (T : Nat) :
    (s.endFrame T).agenda = s.agenda := rfl
@[simp] theorem State.endFrame_params (s : State) (T : Nat) :
    (s.endFrame T).params = s.params := rfl

end Sys2Proof.Machine
end

