-- ==== Sys2Proof/Laws/Table.lean ====
section
/-! SUPPORT. Laws/Table.lean: what each operation of the Sensor Table answers and leaves (40_sensor_table.md). -/

namespace Sys2Proof.Machine

open Sys2Proof

/-! ## Slots -/

theorem mem_slotOrder (i : Fin CAP) : i ∈ slotOrder := by
  revert i; decide

theorem table_set_same (table : Table) (i : Fin CAP) (x : Option Slot) : (table.set i x)[i] = x := by
  simp

theorem table_set_other (table : Table) (i j : Fin CAP) (x : Option Slot) (h : j ≠ i) :
    (table.set i x)[j] = table[j] := by
  have : i.val ≠ j.val := fun e => h (Fin.ext e.symm)
  simp [this]

theorem table_ext (a b : Table) (h : ∀ i : Fin CAP, a[i] = b[i]) : a = b := by
  apply Vector.ext
  intro i hi
  exact h ⟨i, hi⟩

theorem occupied_iff (table : Table) (i : Fin CAP) : occupied table i = true ↔ ∃ slot, table[i] = some slot := by
  simp [occupied, Option.isSome_iff_exists]

theorem holdsType_iff (table : Table) (t : Byte) (i : Fin CAP) :
    holdsType table t i = true ↔ ∃ v, table[i] = some { type := t, value := v } := by
  unfold holdsType
  rcases h : table[i] with _ | ⟨ty, v⟩
  · simp
  · simp

/-! ## FIND_BY_TYPE (40_sensor_table.md R112, R113) -/

theorem holdsType_of_findByType {table : Table} {t : Byte} {i : Fin CAP} (h : findByType table t = some i) :
    ∃ v, table[i] = some { type := t, value := v } :=
  (holdsType_iff table t i).1 (List.find?_some h)

theorem findByType_eq_none (table : Table) (t : Byte) :
    findByType table t = none ↔ ∀ i : Fin CAP, ∀ slot, table[i] = some slot → slot.type ≠ t := by
  simp only [findByType, List.find?_eq_none]
  constructor
  · rintro h i ⟨ty, v⟩ hi rfl
    exact h i (mem_slotOrder i) ((holdsType_iff _ _ _).2 ⟨v, hi⟩)
  · intro h i _ hi
    obtain ⟨v, hv⟩ := (holdsType_iff _ _ _).1 hi
    exact h i _ hv rfl

/-- With each type in at most one slot, FIND_BY_TYPE answers the slot that holds the type. -/
theorem findByType_eq_some (table : Table) (hd : TypesDistinct table) (t : Byte) (i : Fin CAP) :
    findByType table t = some i ↔ ∃ v, table[i] = some { type := t, value := v } := by
  refine ⟨holdsType_of_findByType, ?_⟩
  rintro ⟨v, hv⟩
  rcases hf : findByType table t with _ | j
  · exact absurd rfl ((findByType_eq_none _ _).1 hf i _ hv)
  · obtain ⟨v', hv'⟩ := holdsType_of_findByType hf
    by_cases hij : j = i
    · rw [hij]
    · refine absurd ?_ (hd j i hij ((occupied_iff _ _).2 ⟨_, hv'⟩))
      rw [hv, hv']
      rfl

/-! ## The first free slot (40_sensor_table.md R110) -/

theorem firstFree_eq_none (table : Table) : firstFree table = none ↔ ∀ i : Fin CAP, occupied table i = true := by
  simp only [firstFree, List.find?_eq_none]
  exact ⟨fun h i => by simpa using h i (mem_slotOrder i), fun h i _ => by simp [h i]⟩

theorem firstFree_eq_some (table : Table) (j : Fin CAP) :
    firstFree table = some j ↔ table[j] = none ∧ ∀ i : Fin CAP, i < j → occupied table i = true := by
  have key : ∀ a b c d : Bool, ∀ j : Fin CAP,
      (slotOrder.find? fun i => !(#v[a, b, c, d] : Vector Bool CAP)[i]) = some j ↔
        (#v[a, b, c, d] : Vector Bool CAP)[j] = false ∧
          ∀ i : Fin CAP, i < j → (#v[a, b, c, d] : Vector Bool CAP)[i] = true := by decide
  have hv : ∀ i : Fin CAP,
      (#v[occupied table 0, occupied table 1, occupied table 2, occupied table 3] : Vector Bool CAP)[i] =
        occupied table i := by
    intro i
    match i with
    | 0 => rfl
    | 1 => rfl
    | 2 => rfl
    | 3 => rfl
  have hn : occupied table j = false ↔ table[j] = none := by simp [occupied]
  have := key (occupied table 0) (occupied table 1) (occupied table 2) (occupied table 3) j
  simp only [hv] at this
  rw [← hn, ← this, firstFree]

/-! ## AT (40_sensor_table.md R114) -/

theorem slotOfAddr_eq_some (a : Nibble) (i : Fin CAP) : slotOfAddr a = some i ↔ a.toNat = i.val + 1 := by
  revert a i; decide

theorem slotOfAddr_eq_none (a : Nibble) : slotOfAddr a = none ↔ addrHandled a = false := by
  revert a; decide

/-- AT answers a slot exactly when the address is the slot's and the slot is occupied. -/
theorem slotAt_eq_some (table : Table) (a : Nibble) (i : Fin CAP) :
    slotAt table a = some i ↔ a.toNat = i.val + 1 ∧ occupied table i = true := by
  unfold slotAt
  rcases h : slotOfAddr a with _ | k
  · simp only [reduceCtorEq, false_iff]
    rintro ⟨h', _⟩
    rw [(slotOfAddr_eq_some a i).2 h'] at h
    cases h
  · rw [← slotOfAddr_eq_some, h]
    by_cases ho : occupied table k = true
    · simp only [ho, if_true, Option.some.injEq]
      constructor
      · rintro rfl; exact ⟨rfl, ho⟩
      · exact fun h => h.1
    · simp only [ho]
      simp only [Bool.false_eq_true, if_false, Option.some.injEq, reduceCtorEq, false_iff]
      rintro ⟨rfl, h'⟩
      exact ho h'

/-! ## UPSERT (40_sensor_table.md R110) -/

/-- Everything an upsert can do. -/
theorem upsert_cases (t : Byte) (v : Half) (s : State) :
    (∃ i v0, findByType s.slots t = some i ∧ s.slots[i] = some { type := t, value := v0 } ∧
      upsert t v s = ({ s with slots := s.slots.set i (some { type := t, value := v }) }, true)) ∨
    (∃ j, findByType s.slots t = none ∧ firstFree s.slots = some j ∧
      upsert t v s = ({ s with slots := s.slots.set j (some { type := t, value := v }) }, true)) ∨
    (findByType s.slots t = none ∧ firstFree s.slots = none ∧
      upsert t v s = (s.offer (.capacityExceeded t v), false)) := by
  unfold upsert
  rcases hf : findByType s.slots t with _ | i
  · rcases hj : firstFree s.slots with _ | j
    · exact .inr (.inr ⟨rfl, rfl, rfl⟩)
    · exact .inr (.inl ⟨j, rfl, rfl, rfl⟩)
  · obtain ⟨v0, hv0⟩ := holdsType_of_findByType hf
    refine .inl ⟨i, v0, rfl, hv0, ?_⟩
    simp only [setValue, hv0]

/-- An upsert keeps the occupied slots an initial segment (10_state.md R33). -/
theorem upsert_occupiedInitial (t : Byte) (v : Half) (s : State) (h : OccupiedInitial s.slots) :
    OccupiedInitial (upsert t v s).1.slots := by
  have occ (k i : Fin CAP) (x : Slot) (h : occupied (s.slots.set k (some x)) i = true) :
      i = k ∨ occupied s.slots i = true := by
    by_cases hik : i = k
    · exact .inl hik
    · rw [occupied, table_set_other _ _ _ _ hik] at h
      exact .inr h
  have occ' (k i : Fin CAP) (x : Slot) (h : i = k ∨ occupied s.slots i = true) :
      occupied (s.slots.set k (some x)) i = true := by
    by_cases hik : i = k
    · subst hik
      rw [occupied, table_set_same]
      rfl
    · rw [occupied, table_set_other _ _ _ _ hik]
      exact h.resolve_left hik
  rcases upsert_cases t v s with ⟨i, v0, -, hi, e⟩ | ⟨j, -, hj, e⟩ | ⟨-, -, e⟩ <;> rw [e]
  · intro a b hab hb
    refine occ' i a _ (.inr (h a b hab ?_))
    rcases occ i b _ hb with rfl | hb
    · exact (occupied_iff _ _).2 ⟨_, hi⟩
    · exact hb
  · obtain ⟨-, hbelow⟩ := (firstFree_eq_some _ _).1 hj
    intro a b hab hb
    refine occ' j a _ (.inr ?_)
    rcases occ j b _ hb with rfl | hb
    · exact hbelow a hab
    · exact h a b hab hb
  · simpa using h

/-- An upsert keeps each type in at most one slot (10_state.md R32). -/
theorem upsert_typesDistinct (t : Byte) (v : Half) (s : State) (h : TypesDistinct s.slots) :
    TypesDistinct (upsert t v s).1.slots := by
  have keep (k : Fin CAP) (hk : ∀ i : Fin CAP, i ≠ k → ∀ slot, s.slots[i] = some slot → slot.type ≠ t) :
      TypesDistinct (s.slots.set k (some { type := t, value := v })) := by
    intro a b hab ha
    by_cases hak : a = k
    · subst hak
      rw [table_set_same, table_set_other _ _ _ _ (Ne.symm hab)]
      rcases hb : s.slots[b] with _ | slot
      · simp
      · simpa using (hk b (Ne.symm hab) slot hb).symm
    · rw [table_set_other _ _ _ _ hak]
      rw [occupied, table_set_other _ _ _ _ hak] at ha
      by_cases hbk : b = k
      · subst hbk
        rw [table_set_same]
        obtain ⟨slot, hs⟩ := Option.isSome_iff_exists.1 ha
        rw [hs]
        simpa using hk a hak slot hs
      · rw [table_set_other _ _ _ _ hbk]
        exact h a b hab ha
  rcases upsert_cases t v s with ⟨i, v0, -, hi, e⟩ | ⟨j, hf, -, e⟩ | ⟨-, -, e⟩ <;> rw [e]
  · refine keep i fun k hki slot hs ht => ?_
    refine h k i hki ((occupied_iff _ _).2 ⟨_, hs⟩) ?_
    rw [hs, hi, ← ht]
    rfl
  · exact keep j fun k _ slot hs => (findByType_eq_none _ _).1 hf k slot hs
  · simpa using h

end Sys2Proof.Machine
end

