-- ==== Sys2Proof/Laws/Transport.lean ====
section
/-! SUPPORT. Laws/Transport.lean: reading a transport after writing one, the canonical form, and what each transport
primitive does to `RX` and `TX` (60_exceptions.md R236). -/

namespace Sys2Proof.Machine

open Sys2Proof

/-! ## The list of transports -/

theorem wireGet_wireInsert_same (l : List (Nat × Wire)) (T : Nat) (w : Wire) (h : ∀ e ∈ l, e.1 ≠ T) :
    wireGet (wireInsert T w l) T = w := by
  induction l with
  | nil => simp [wireInsert, wireGet]
  | cons e rest ih =>
    obtain ⟨k, v⟩ := e
    have hk : k ≠ T := h (k, v) (by simp)
    simp only [wireInsert]
    split
    · simp [wireGet]
    · simp only [wireGet, if_neg hk]
      exact ih fun e he => h e (by simp [he])

theorem wireGet_wireInsert_other (l : List (Nat × Wire)) (T T' : Nat) (w : Wire) (h : T' ≠ T) :
    wireGet (wireInsert T w l) T' = wireGet l T' := by
  induction l with
  | nil => simp [wireInsert, wireGet, h.symm]
  | cons e rest ih =>
    obtain ⟨k, v⟩ := e
    simp only [wireInsert]
    split
    · simp [wireGet, h.symm]
    · simp only [wireGet, ih]

theorem wireGet_of_absent (l : List (Nat × Wire)) (T : Nat) (h : ∀ e ∈ l, e.1 ≠ T) : wireGet l T = Wire.empty := by
  induction l with
  | nil => rfl
  | cons e rest ih =>
    obtain ⟨k, v⟩ := e
    simp only [wireGet, if_neg (h (k, v) (by simp))]
    exact ih fun e he => h e (by simp [he])

theorem wireGet_filter_other (l : List (Nat × Wire)) (T T' : Nat) (h : T' ≠ T) :
    wireGet (l.filter fun e => e.1 != T) T' = wireGet l T' := by
  induction l with
  | nil => rfl
  | cons e rest ih =>
    obtain ⟨k, v⟩ := e
    by_cases hk : k = T
    · subst hk
      simp [wireGet, h.symm, ih]
    · simp [hk, wireGet, ih]

theorem ne_of_mem_others {l : List (Nat × Wire)} {T : Nat} :
    ∀ e ∈ (l.filter fun e => e.1 != T), e.1 ≠ T := by
  intro e he
  simpa using (List.mem_filter.1 he).2

/-- A transport read back after it was replaced. -/
@[simp] theorem wireGet_wirePut_same (l : List (Nat × Wire)) (T : Nat) (w : Wire) :
    wireGet (wirePut l T w) T = w := by
  unfold wirePut
  split
  next h => rw [wireGet_of_absent _ _ ne_of_mem_others, h]
  next => exact wireGet_wireInsert_same _ _ _ ne_of_mem_others

/-- Replacing one transport leaves every other alone. -/
theorem wireGet_wirePut_other (l : List (Nat × Wire)) (T T' : Nat) (w : Wire) (h : T' ≠ T) :
    wireGet (wirePut l T w) T' = wireGet l T' := by
  unfold wirePut
  split
  · exact wireGet_filter_other l T T' h
  · rw [wireGet_wireInsert_other _ _ _ _ h, wireGet_filter_other l T T' h]

theorem filter_wireInsert (l : List (Nat × Wire)) (T : Nat) (w : Wire) :
    (wireInsert T w l).filter (fun e => e.1 != T) = l.filter fun e => e.1 != T := by
  induction l with
  | nil => simp [wireInsert]
  | cons e rest ih =>
    obtain ⟨k, v⟩ := e
    simp only [wireInsert]
    split
    · simp
    · simp only [List.filter_cons, ih]

/-- Only the last of two replacements of one transport counts. -/
@[simp] theorem wirePut_wirePut (l : List (Nat × Wire)) (T : Nat) (v w : Wire) :
    wirePut (wirePut l T v) T w = wirePut l T w := by
  have h : (wirePut l T v).filter (fun e => e.1 != T) = l.filter fun e => e.1 != T := by
    unfold wirePut
    split
    · simp
    · rw [filter_wireInsert]
      simp
  simp only [wirePut] at h ⊢
  rw [h]

theorem wiresWf_filter (l : List (Nat × Wire)) (T : Nat) (h : wiresWf l = true) :
    wiresWf (l.filter fun e => e.1 != T) = true := by
  induction l with
  | nil => rfl
  | cons e rest ih =>
    obtain ⟨k, v⟩ := e
    simp only [wiresWf, Bool.and_eq_true, List.all_eq_true] at h
    by_cases hk : k = T
    · simpa [hk] using ih h.2
    · have hk' : (k != T) = true := by simpa using hk
      simp only [List.filter_cons, hk', if_true, wiresWf, Bool.and_eq_true, List.all_eq_true]
      exact ⟨⟨h.1.1, fun e he => h.1.2 e (List.mem_filter.1 he).1⟩, ih h.2⟩

theorem mem_wireInsert {l : List (Nat × Wire)} {T : Nat} {w : Wire} {e : Nat × Wire}
    (h : e ∈ wireInsert T w l) : e = (T, w) ∨ e ∈ l := by
  induction l with
  | nil => simpa [wireInsert] using h
  | cons a rest ih =>
    obtain ⟨k, v⟩ := a
    simp only [wireInsert] at h
    split at h
    · simpa using h
    · rcases List.mem_cons.1 h with h | h
      · exact .inr (by simp [h])
      · exact (ih h).imp id fun h => by simp [h]

theorem wiresWf_wireInsert (l : List (Nat × Wire)) (T : Nat) (w : Wire) (hl : wiresWf l = true)
    (hT : ∀ e ∈ l, e.1 ≠ T) (hw : w ≠ Wire.empty) : wiresWf (wireInsert T w l) = true := by
  induction l with
  | nil => simp [wireInsert, wiresWf, hw]
  | cons a rest ih =>
    obtain ⟨k, v⟩ := a
    have hk : k ≠ T := hT (k, v) (by simp)
    have hl' := hl
    simp only [wiresWf, Bool.and_eq_true, List.all_eq_true, decide_eq_true_eq] at hl'
    simp only [wireInsert]
    split
    next hlt =>
      simp only [wiresWf, Bool.and_eq_true, List.all_eq_true, decide_eq_true_eq, List.mem_cons]
      refine ⟨⟨by simpa using hw, ?_⟩, hl'⟩
      rintro e (rfl | he)
      · exact hlt
      · exact Nat.lt_trans hlt (hl'.1.2 e he)
    next hlt =>
      simp only [wiresWf, Bool.and_eq_true, List.all_eq_true, decide_eq_true_eq]
      refine ⟨⟨hl'.1.1, fun e he => ?_⟩, ih hl'.2 fun e he => hT e (by simp [he])⟩
      rcases mem_wireInsert he with rfl | he
      · exact Nat.lt_of_le_of_ne (Nat.le_of_not_lt hlt) hk
      · exact hl'.1.2 e he

/-- Replacing a transport keeps the canonical form. -/
theorem wiresWf_wirePut (l : List (Nat × Wire)) (T : Nat) (w : Wire) (h : wiresWf l = true) :
    wiresWf (wirePut l T w) = true := by
  unfold wirePut
  split
  · exact wiresWf_filter l T h
  · next hw => exact wiresWf_wireInsert _ _ _ (wiresWf_filter l T h) ne_of_mem_others hw

/-! ## `RX` and `TX` after each update -/

@[simp] theorem State.rx_setRx (s : State) (T : Nat) (bs : List Byte) : (s.setRx T bs).rx T = bs := by
  simp [State.rx]

theorem State.rx_setRx_other (s : State) (T T' : Nat) (bs : List Byte) (h : T' ≠ T) :
    (s.setRx T bs).rx T' = s.rx T' := by
  simp [State.rx, wireGet_wirePut_other _ _ _ _ h]

@[simp] theorem State.tx_setRx (s : State) (T T' : Nat) (bs : List Byte) : (s.setRx T bs).tx T' = s.tx T' := by
  by_cases h : T' = T
  · subst h; simp [State.tx]
  · simp [State.tx, wireGet_wirePut_other _ _ _ _ h]

@[simp] theorem State.rx_txWrite (s : State) (T T' : Nat) (r : List Byte) : (s.txWrite T r).rx T' = s.rx T' := by
  by_cases h : T' = T
  · subst h; simp [State.rx]
  · simp [State.rx, wireGet_wirePut_other _ _ _ _ h]

@[simp] theorem State.tx_txWrite (s : State) (T : Nat) (r : List Byte) : (s.txWrite T r).tx T = s.tx T ++ r := by
  simp [State.tx]

theorem State.tx_txWrite_other (s : State) (T T' : Nat) (r : List Byte) (h : T' ≠ T) :
    (s.txWrite T r).tx T' = s.tx T' := by
  simp [State.tx, wireGet_wirePut_other _ _ _ _ h]

/-- What is read of a transport depends on the list of transports alone. -/
theorem State.rx_congr {s t : State} (h : t.wires = s.wires) (T : Nat) : t.rx T = s.rx T := by
  simp [State.rx, h]

/-- What is read of a transport depends on the list of transports alone. -/
theorem State.tx_congr {s t : State} (h : t.wires = s.wires) (T : Nat) : t.tx T = s.tx T := by
  simp [State.tx, h]

@[simp] theorem State.rx_offer (s : State) (e : DiagEvent) (T : Nat) : (s.offer e).rx T = s.rx T :=
  State.rx_congr (State.offer_wires s e) T

@[simp] theorem State.tx_offer (s : State) (e : DiagEvent) (T : Nat) : (s.offer e).tx T = s.tx T :=
  State.tx_congr (State.offer_wires s e) T

@[simp] theorem State.rx_answer (s : State) (r : Result) (T : Nat) : (s.answer r).rx T = s.rx T := rfl

@[simp] theorem State.tx_answer (s : State) (r : Result) (T : Nat) : (s.answer r).tx T = s.tx T := rfl

@[simp] theorem State.rx_countRequest (s : State) (T : Nat) : s.countRequest.rx T = s.rx T := rfl

@[simp] theorem State.tx_countRequest (s : State) (T : Nat) : s.countRequest.tx T = s.tx T := rfl

@[simp] theorem State.rx_countResponse (s : State) (T : Nat) : s.countResponse.rx T = s.rx T := rfl

@[simp] theorem State.tx_countResponse (s : State) (T : Nat) : s.countResponse.tx T = s.tx T := rfl

@[simp] theorem State.rx_setDiscovered (s : State) (T : Nat) : s.setDiscovered.rx T = s.rx T := rfl

@[simp] theorem State.tx_setDiscovered (s : State) (T : Nat) : s.setDiscovered.tx T = s.tx T := rfl

@[simp] theorem State.rx_emit (s : State) (T T' : Nat) (r : List Byte) : (s.emit T r).rx T' = s.rx T' := by
  simp [State.emit]

@[simp] theorem State.tx_emit (s : State) (T : Nat) (r : List Byte) : (s.emit T r).tx T = s.tx T ++ r := by
  simp [State.emit]

theorem State.tx_emit_other (s : State) (T T' : Nat) (r : List Byte) (h : T' ≠ T) :
    (s.emit T r).tx T' = s.tx T' := by
  simp [State.emit, State.tx_txWrite_other _ _ _ _ h]

@[simp] theorem State.tx_arrive (s : State) (T T' : Nat) : (s.arrive T).tx T' = s.tx T' :=
  State.tx_setRx s T T' (s.rx T ++ s.arriving)

@[simp] theorem State.rx_arrive (s : State) (T : Nat) : (s.arrive T).rx T = s.rx T ++ s.arriving :=
  State.rx_setRx s T (s.rx T ++ s.arriving)

theorem State.rx_arrive_other (s : State) (T T' : Nat) (h : T' ≠ T) : (s.arrive T).rx T' = s.rx T' :=
  State.rx_setRx_other s T T' (s.rx T ++ s.arriving) h

@[simp] theorem State.tx_beginFrame (s : State) (T T' : Nat) (f : Frame) : (s.beginFrame T f).tx T' = s.tx T' := by
  simp only [State.beginFrame, State.tx_arrive, State.tx_offer]
  rfl

theorem State.rx_beginFrame_other (s : State) (T T' : Nat) (f : Frame) (h : T' ≠ T) :
    (s.beginFrame T f).rx T' = s.rx T' := by
  simp only [State.beginFrame, State.rx_arrive_other _ _ _ h, State.rx_offer]
  rfl

@[simp] theorem State.tx_endFrame (s : State) (T T' : Nat) : (s.endFrame T).tx T' = s.tx T' :=
  State.tx_setRx s T T' []

@[simp] theorem State.rx_endFrame (s : State) (T : Nat) : (s.endFrame T).rx T = [] := State.rx_setRx s T []

theorem State.rx_endFrame_other (s : State) (T T' : Nat) (h : T' ≠ T) : (s.endFrame T).rx T' = s.rx T' :=
  State.rx_setRx_other s T T' [] h

/-! ## Reading a frame -/

/-- `takeFrame` takes the four oldest bytes, and nothing when fewer are there (42_framing.md R142, R149). -/
theorem State.takeFrame_eq (s : State) (T : Nat) :
    s.takeFrame T =
      match s.rx T with
      | b0 :: b1 :: b2 :: b3 :: rest => some ({ b0 := b0, b1 := b1, b2 := b2, b3 := b3 }, s.setRx T rest)
      | _ => none := by
  have again (s : State) (a b : List Byte) : (s.setRx T a).setRx T b = s.setRx T b := by
    simp [State.setRx]
  unfold State.takeFrame State.rxAvail State.rxRead
  rcases h : s.rx T with _ | ⟨b0, _ | ⟨b1, _ | ⟨b2, _ | ⟨b3, rest⟩⟩⟩⟩ <;> simp [again]

theorem State.takeFrame_four (s : State) (T : Nat) (b0 b1 b2 b3 : Byte) (rest : List Byte)
    (h : s.rx T = b0 :: b1 :: b2 :: b3 :: rest) :
    s.takeFrame T = some ({ b0 := b0, b1 := b1, b2 := b2, b3 := b3 }, s.setRx T rest) := by
  rw [State.takeFrame_eq, h]

theorem State.takeFrame_none (s : State) (T : Nat) (h : s.rxAvail T < 4) : s.takeFrame T = none := by
  unfold State.takeFrame
  rw [if_pos h]

end Sys2Proof.Machine
end

