-- ==== Sys2Proof/Laws/Serve.lean ====
section
/-! SUPPORT. Laws/Serve.lean: everything the handling of a frame can do, once (42_framing.md R140, 43_dispatch.md). -/

namespace Sys2Proof.Machine

open Sys2Proof

theorem withSlot_occupied (f : Frame) (respond : Slot → State → State) (s : State) (k : Fin CAP) (slot : Slot)
    (ha : (addrOf f.b1).toNat = k.val + 1) (hs : s.slots[k] = some slot) : withSlot f respond s = respond slot s := by
  have h : slotAt s.slots (addrOf f.b1) = some k :=
    (slotAt_eq_some _ _ _).2 ⟨ha, (occupied_iff _ _).2 ⟨slot, hs⟩⟩
  simp only [withSlot, h, hs]

theorem withSlot_absent (f : Frame) (respond : Slot → State → State) (s : State)
    (h : ∀ k : Fin CAP, (addrOf f.b1).toNat = k.val + 1 → s.slots[k] = none) :
    withSlot f respond s = s.offer (.noSensor f) := by
  unfold withSlot
  rcases hk : slotAt s.slots (addrOf f.b1) with _ | k
  · rfl
  · obtain ⟨ha, ho⟩ := (slotAt_eq_some _ _ _).1 hk
    rw [occupied, h k ha] at ho
    cases ho

theorem serveRequest_bound {s : State} {T : Nat} (h : s.transport = some T) (f : Frame)
    (command : Nat → State → State) :
    serveRequest f command s =
      .next ((ifChecksumOk f (dispatch f (command T)) (s.beginFrame T f)).endFrame T) := by
  simp only [serveRequest, h]

theorem serveRequest_unbound {s : State} (h : s.transport = none) (f : Frame) (command : Nat → State → State) :
    serveRequest f command s = .fault .unbound := by
  simp only [serveRequest, h]

theorem chkOk_iff (f : Frame) : chkOk f = true ↔ chk2 f.b0 f.b1 = rxChk f := by
  simp [chkOk]

theorem addrHandled_iff (a : Nibble) : addrHandled a = true ↔ 1 ≤ a.toNat ∧ a.toNat ≤ 4 := by
  simp [addrHandled, CAP]

/-- A DISCOVER response re-validates (41_checksum.md R136). -/
theorem revalidates_discover (b1 : Byte) : Revalidates (discoverResponse b1) :=
  .inl ⟨_, _, _, _, rfl, le16_lo16_hi16 _⟩

/-- A TYPE response re-validates. -/
theorem revalidates_type (addr : Nibble) (t : Byte) : Revalidates (typeResponse addr t) :=
  .inr ⟨_, _, _, _, _, _, rfl, le16_lo16_hi16 _⟩

/-- A MEASUREMENT response re-validates. -/
theorem revalidates_measurement (addr : Nibble) (v : Half) : Revalidates (measurementResponse addr v) :=
  .inr ⟨_, _, _, _, _, _, rfl, le16_lo16_hi16 _⟩

/-! ## One relation for the handling of a frame -/

/-- What the checks and the dispatch make of the state in which a frame's handling has begun. -/
inductive Served (T : Nat) (s : State) : State → Prop where
  /-- Not valid: an event, and nothing else (42_framing.md R143, R145). -/
  | dropped (e : DiagEvent) : Served T s (s.offer e)
  /-- Valid and counted, without a response (43_dispatch.md R161, R162, R176). -/
  | silent (e : DiagEvent) : Served T s (s.countRequest.offer e)
  /-- Valid, counted and answered (43_dispatch.md R169, R172). -/
  | answered (r : List Byte) (h : r.length = 6) (hr : Revalidates r) : Served T s (s.countRequest.emit T r)
  /-- Valid, counted, answered, and the discovered flag set (43_dispatch.md R165, R166). -/
  | discovered (r : List Byte) (h : r.length = 4) (hr : Revalidates r) : Served T s (s.countRequest.emit T r).setDiscovered

theorem served_of_dispatch {T : Nat} {f : Frame} {command : State → State} {s : State}
    (h : ∀ u, (∃ e, command u = u.offer e) ∨ (∃ r, r.length = 6 ∧ Revalidates r ∧ command u = u.emit T r) ∨
      ∃ r, r.length = 4 ∧ Revalidates r ∧ command u = (u.emit T r).setDiscovered) :
    Served T s (ifChecksumOk f (dispatch f command) s) := by
  unfold ifChecksumOk
  split
  · unfold dispatch
    simp only
    split
    · rcases h s.countRequest with ⟨e, he⟩ | ⟨r, hr, hv, he⟩ | ⟨r, hr, hv, he⟩ <;> rw [he]
      · exact .silent e
      · exact .answered r hr hv
      · exact .discovered r hr hv
    · exact .silent _
  · exact .dropped _

theorem withSlot_cases (f : Frame) (respond : Slot → State → State) (s : State) :
    withSlot f respond s = s.offer (.noSensor f) ∨
      ∃ (k : Fin CAP) (slot : Slot), (addrOf f.b1).toNat = k.val + 1 ∧ s.slots[k] = some slot ∧
        withSlot f respond s = respond slot s := by
  by_cases h : ∀ k : Fin CAP, (addrOf f.b1).toNat = k.val + 1 → s.slots[k] = none
  · exact .inl (withSlot_absent f respond s h)
  · simp only [not_forall] at h
    obtain ⟨k, ha, hk⟩ := h
    obtain ⟨slot, hs⟩ := Option.ne_none_iff_exists'.1 hk
    exact .inr ⟨k, slot, ha, hs, withSlot_occupied f respond s k slot ha hs⟩

theorem served_discover (T : Nat) (f : Frame) (s : State) :
    Served T s (ifChecksumOk f (dispatch f (doDiscover T f)) s) :=
  served_of_dispatch fun u => by
    rcases withSlot_cases f (fun _ s => (s.emit T (discoverResponse f.b1)).setDiscovered) u with h | ⟨_, _, _, _, h⟩
    · exact .inl ⟨_, h⟩
    · exact .inr (.inr ⟨_, rfl, revalidates_discover _, h⟩)

theorem served_type (T : Nat) (f : Frame) (s : State) :
    Served T s (ifChecksumOk f (dispatch f (doType T f)) s) :=
  served_of_dispatch fun u => by
    rcases withSlot_cases f (fun slot s => s.emit T (typeResponse (addrOf f.b1) slot.type)) u with h | ⟨_, _, _, _, h⟩
    · exact .inl ⟨_, h⟩
    · exact .inr (.inl ⟨_, rfl, revalidates_type _ _, h⟩)

theorem served_measurement (T : Nat) (f : Frame) (s : State) :
    Served T s (ifChecksumOk f (dispatch f (doMeasurement T f)) s) :=
  served_of_dispatch fun u => by
    rcases withSlot_cases f (fun slot s => s.emit T (measurementResponse (addrOf f.b1) slot.value)) u with
      h | ⟨_, _, _, _, h⟩
    · exact .inl ⟨_, h⟩
    · exact .inr (.inl ⟨_, rfl, revalidates_measurement _ _, h⟩)

theorem served_ignore (T : Nat) (f : Frame) (s : State) :
    Served T s (ifChecksumOk f (dispatch f (ignoreCommand f)) s) :=
  served_of_dispatch fun _ => .inl ⟨_, rfl⟩

/-- The request a frame with length byte 0x04 is (30_encoding.md R89). -/
theorem decodeFrame_cases (f : Frame) (hb : f.b0 = LEN4) :
    (decodeFrame f = some (.reqDiscover (addrOf f.b1) (rxChk f)) ∧ cmdOf f.b1 = CMD_DISCOVER) ∨
    (decodeFrame f = some (.reqType (addrOf f.b1) (rxChk f)) ∧ cmdOf f.b1 = CMD_TYPE) ∨
    (decodeFrame f = some (.reqMeasurement (addrOf f.b1) (rxChk f)) ∧ cmdOf f.b1 = CMD_MEAS) ∨
    (decodeFrame f = some (.reqUnhandledLow (cmdOf f.b1) (addrOf f.b1) (rxChk f)) ∧ (cmdOf f.b1).toNat < 0x8) ∨
    (decodeFrame f = some (.reqUnhandledHigh (cmdOf f.b1) (addrOf f.b1) (rxChk f)) ∧ 0xA < (cmdOf f.b1).toNat) := by
  have far : ∀ c : Nibble, c ≠ CMD_DISCOVER → c ≠ CMD_TYPE → c ≠ CMD_MEAS → ¬c.toNat < 0x8 → 0xA < c.toNat := by decide
  unfold decodeFrame
  simp only [hb, if_true]
  by_cases h8 : cmdOf f.b1 = CMD_DISCOVER
  · exact .inl ⟨if_pos h8, h8⟩
  by_cases h9 : cmdOf f.b1 = CMD_TYPE
  · exact .inr (.inl ⟨by rw [if_neg h8, if_pos h9], h9⟩)
  by_cases hA : cmdOf f.b1 = CMD_MEAS
  · exact .inr (.inr (.inl ⟨by rw [if_neg h8, if_neg h9, if_pos hA], hA⟩))
  by_cases hl : (cmdOf f.b1).toNat < 0x8
  · exact .inr (.inr (.inr (.inl ⟨by rw [if_neg h8, if_neg h9, if_neg hA, if_pos hl], hl⟩)))
  · exact .inr (.inr (.inr (.inr ⟨by rw [if_neg h8, if_neg h9, if_neg hA, if_neg hl], far _ h8 h9 hA hl⟩)))

/-- The handling of a frame by a bound instance always goes on, and only in the ways of `Served`. -/
theorem serveFrame_served (T : Nat) (f : Frame) (s : State) (h : s.transport = some T) :
    ∃ m, Served T (s.beginFrame T f) m ∧ serveFrame T f s = .next (m.endFrame T) := by
  by_cases hb : f.b0 = LEN4
  · have hf := frame_eq_requestFrame f hb
    rcases decodeFrame_cases f hb with ⟨hd, hc⟩ | ⟨hd, hc⟩ | ⟨hd, hc⟩ | ⟨hd, -⟩ | ⟨hd, -⟩ <;>
      simp only [serveFrame, hd, execReqDiscover, execReqType, execReqMeasurement, execReqUnhandledLow,
        execReqUnhandledHigh, serveRequest_bound h]
    · rw [← hc, ← hf]; exact ⟨_, served_discover T f _, rfl⟩
    · rw [← hc, ← hf]; exact ⟨_, served_type T f _, rfl⟩
    · rw [← hc, ← hf]; exact ⟨_, served_measurement T f _, rfl⟩
    · rw [← hf]; exact ⟨_, served_ignore T f _, rfl⟩
    · rw [← hf]; exact ⟨_, served_ignore T f _, rfl⟩
  · refine ⟨_, .dropped (.badLength f), ?_⟩
    simp only [serveFrame, decodeFrame, if_neg hb]
    rfl

/-! ## One relation for every instruction that goes on -/

/-- Everything an instruction that goes on can leave. -/
inductive Ran (s : State) : Instr → State → Prop where
  | request {i : Instr} (T : Nat) (f : Frame) (m : State) (hp : i.port = .request) (hT : s.transport = some T)
      (h : Served T (s.beginFrame T f) m) (hd : m.discovered = s.discovered ∨ ∃ addr chk, i = .reqDiscover addr chk) :
      Ran s i (m.endFrame T)
  | response {i : Instr} (T : Nat) (r : List Byte) (hp : i.port = .response) (hT : s.transport = some T)
      (hr : Revalidates r) :
      Ran s i (s.emit T r)
  | init (T : Nat) (hT : s.transport = none) (hp : s.takenByPeer T = false) :
      Ran s (.hostInit T) (State.answer .done { s with transport := some T })
  | pollIdle (T : Nat) (hT : s.transport = some T) (h : s.rxAvail T < 4) : Ran s .hostPoll (s.answer .done)
  | poll (T : Nat) (f : Frame) (rest : List Byte) (m : State) (hT : s.transport = some T)
      (hrx : s.rx T = f.b0 :: f.b1 :: f.b2 :: f.b3 :: rest)
      (h : Served T ((s.setRx T rest).beginFrame T f) m) : Ran s .hostPoll ((m.endFrame T).answer .done)
  | setDebug (e : Bool) : Ran s (.hostSetDebug e) ((s.setDebug e).answer .done)
  | upsert {i : Instr} (t : Byte) (v : Half)
      (hi : i = .hostUpsert t v ∨ (∃ k x, i = .hostSetKind k x) ∨ i = .tblUpsert t v) : Ran s i (upsertAnswered t v s)
  | read {i : Instr} (r : Result) (hp : i.port = .host ∨ i.port = .table) (hi : i ≠ .hostPoll) : Ran s i (s.answer r)

theorem served_discovered_eq {s : State} {f : Frame} {command : State → State}
    (h : ∀ u : State, (command u).discovered = u.discovered) :
    (ifChecksumOk f (dispatch f command) s).discovered = s.discovered := by
  unfold ifChecksumOk dispatch
  split
  · simp only
    split
    · rw [h]; rfl
    · simp
  · simp

theorem withSlot_discovered (f : Frame) (respond : Slot → State → State) (s : State)
    (h : ∀ slot u, (respond slot u).discovered = u.discovered) : (withSlot f respond s).discovered = s.discovered := by
  rcases withSlot_cases f respond s with e | ⟨_, _, _, _, e⟩ <;> rw [e]
  · simp
  · exact h _ _

/-- Everything an instruction can do when it goes on. -/
theorem exec_ran {i : Instr} {s s' : State} (h : exec i s = .next s') : Ran s i s' := by
  have begun (T : Nat) (f : Frame) : (s.beginFrame T f).discovered = s.discovered := by simp
  cases i with
  | reqDiscover addr chk =>
    simp only [exec, execReqDiscover] at h
    cases hT : s.transport with
    | none => rw [serveRequest_unbound hT] at h; cases h
    | some T =>
      rw [serveRequest_bound hT] at h
      cases h
      exact .request T _ _ rfl hT (served_discover T _ _) (.inr ⟨_, _, rfl⟩)
  | reqType addr chk =>
    simp only [exec, execReqType] at h
    cases hT : s.transport with
    | none => rw [serveRequest_unbound hT] at h; cases h
    | some T =>
      rw [serveRequest_bound hT] at h
      cases h
      exact .request T _ _ rfl hT (served_type T _ _)
        (.inl ((served_discovered_eq fun u => withSlot_discovered _ _ _ fun _ _ => by simp).trans (begun _ _)))
  | reqMeasurement addr chk =>
    simp only [exec, execReqMeasurement] at h
    cases hT : s.transport with
    | none => rw [serveRequest_unbound hT] at h; cases h
    | some T =>
      rw [serveRequest_bound hT] at h
      cases h
      exact .request T _ _ rfl hT (served_measurement T _ _)
        (.inl ((served_discovered_eq fun u => withSlot_discovered _ _ _ fun _ _ => by simp).trans (begun _ _)))
  | reqUnhandledLow cmd addr chk =>
    simp only [exec, execReqUnhandledLow] at h
    cases hT : s.transport with
    | none => rw [serveRequest_unbound hT] at h; cases h
    | some T =>
      rw [serveRequest_bound hT] at h
      cases h
      exact .request T _ _ rfl hT (served_ignore T _ _)
        (.inl ((served_discovered_eq fun u => by simp [ignoreCommand]).trans (begun _ _)))
  | reqUnhandledHigh cmd addr chk =>
    simp only [exec, execReqUnhandledHigh] at h
    cases hT : s.transport with
    | none => rw [serveRequest_unbound hT] at h; cases h
    | some T =>
      rw [serveRequest_bound hT] at h
      cases h
      exact .request T _ _ rfl hT (served_ignore T _ _)
        (.inl ((served_discovered_eq fun u => by simp [ignoreCommand]).trans (begun _ _)))
  | rspDiscover addr chk =>
    cases hT : s.transport <;> simp only [exec, execRspDiscover, emitBound, hT] at h <;> cases h
    exact .response _ _ rfl hT (revalidates_discover _)
  | rspType addr t chk =>
    cases hT : s.transport <;> simp only [exec, execRspType, emitBound, hT] at h <;> cases h
    exact .response _ _ rfl hT (revalidates_type _ _)
  | rspMeasurement addr v chk =>
    cases hT : s.transport <;> simp only [exec, execRspMeasurement, emitBound, hT] at h <;> cases h
    exact .response _ _ rfl hT (revalidates_measurement _ _)
  | hostInit T =>
    cases hT : s.transport with
    | some T' =>
      have : s.bound = true := by simp [Block.bound, hT]
      simp only [exec, execHostInit, this, if_true] at h
      cases h
    | none =>
      have hb : s.bound = false := by simp [Block.bound, hT]
      cases hp : s.takenByPeer T with
      | true => simp only [exec, execHostInit, hb, hp, if_true, Bool.false_eq_true, if_false] at h; cases h
      | false =>
        simp only [exec, execHostInit, hb, hp, Bool.false_eq_true, if_false] at h
        cases h
        exact .init T hT hp
  | hostPoll =>
    simp only [exec, execHostPoll] at h
    cases hT : s.transport with
    | none => simp only [hT] at h; cases h
    | some T =>
      simp only [hT, State.takeFrame_eq] at h
      rcases hrx : s.rx T with _ | ⟨b0, _ | ⟨b1, _ | ⟨b2, _ | ⟨b3, rest⟩⟩⟩⟩ <;> simp only [hrx] at h
      case cons.cons.cons.cons =>
        obtain ⟨m, hm, he⟩ := serveFrame_served T ⟨b0, b1, b2, b3⟩ (s.setRx T rest) (by simpa using hT)
        rw [he] at h
        cases h
        exact .poll T ⟨b0, b1, b2, b3⟩ rest m hT hrx hm
      all_goals
        cases h
        exact .pollIdle T hT (by simp [State.rxAvail, hrx])
  | hostUpsert t v => cases h; exact .upsert t v (.inl rfl)
  | hostSetKind k x =>
    simp only [exec, execHostSetKind] at h
    split at h
    · cases h; exact .upsert _ _ (.inr (.inl ⟨k, x, rfl⟩))
    · cases h
  | hostGetReqCount => cases h; exact .read _ (.inl rfl) (by simp)
  | hostGetRespCount => cases h; exact .read _ (.inl rfl) (by simp)
  | hostGetDiscovered => cases h; exact .read _ (.inl rfl) (by simp)
  | hostSetDebug e => cases h; exact .setDebug e
  | hostGetOccupied => cases h; exact .read _ (.inl rfl) (by simp)
  | hostUnassigned op => cases h
  | tblUpsert t v => cases h; exact .upsert t v (.inr (.inr rfl))
  | tblFindByType t => cases h; exact .read _ (.inr rfl) (by simp)
  | tblAt a => cases h; exact .read _ (.inr rfl) (by simp)
  | tblOccupiedCount => cases h; exact .read _ (.inr rfl) (by simp)

end Sys2Proof.Machine
end

