-- ==== Sys2Proof/Laws/Congruence.lean ====
section
/-! SUPPORT. Laws/Congruence.lean: what the handling of a frame does not depend on. A function `g` that forgets part of a
state is `Forgets g T` when no operation used in handling a frame on transport `T` looks at what `g` forgets; then two
states that look alike through `g` give outcomes that look alike through `g` (`serveFrame_congr`). -/

namespace Sys2Proof.Machine

open Sys2Proof

/-- No operation of a frame's handling reads what `g` forgets. -/
structure Forgets (g : State → State) (T : Nat) : Prop where
  slots : ∀ s, (g s).slots = s.slots
  offer : ∀ e s, g ((g s).offer e) = g (s.offer e)
  countRequest : ∀ s, g (g s).countRequest = g s.countRequest
  emit : ∀ r s, g ((g s).emit T r) = g (s.emit T r)
  setDiscovered : ∀ s, g (g s).setDiscovered = g s.setDiscovered

namespace Forgets

variable {g : State → State} {T : Nat}

theorem command (H : Forgets g T) {f : Frame} {respond : Slot → State → State}
    (hr : ∀ slot s, g (respond slot (g s)) = g (respond slot s)) (s : State) :
    g (withSlot f respond (g s)) = g (withSlot f respond s) := by
  unfold withSlot
  rw [H.slots]
  split
  · split
    · exact hr _ _
    · exact H.offer _ _
  · exact H.offer _ _

theorem checked (H : Forgets g T) {f : Frame} {c : State → State} (hc : ∀ s, g (c (g s)) = g (c s)) (s : State) :
    g (ifChecksumOk f (dispatch f c) (g s)) = g (ifChecksumOk f (dispatch f c) s) := by
  unfold ifChecksumOk
  split
  · unfold dispatch
    simp only
    split
    · rw [← hc, H.countRequest, hc]
    · rw [← H.offer, H.countRequest, H.offer]
  · exact H.offer _ _

/-- Every command's handling forgets what `g` forgets. -/
theorem commands (H : Forgets g T) (f : Frame) (s : State) :
    (g (ifChecksumOk f (dispatch f (doDiscover T f)) (g s)) = g (ifChecksumOk f (dispatch f (doDiscover T f)) s)) ∧
    (g (ifChecksumOk f (dispatch f (doType T f)) (g s)) = g (ifChecksumOk f (dispatch f (doType T f)) s)) ∧
    (g (ifChecksumOk f (dispatch f (doMeasurement T f)) (g s)) =
      g (ifChecksumOk f (dispatch f (doMeasurement T f)) s)) ∧
    (g (ifChecksumOk f (dispatch f (ignoreCommand f)) (g s)) = g (ifChecksumOk f (dispatch f (ignoreCommand f)) s)) :=
  ⟨H.checked (H.command fun _ s => by rw [← H.setDiscovered, H.emit, H.setDiscovered]) s,
    H.checked (H.command fun _ s => H.emit _ s) s, H.checked (H.command fun _ s => H.emit _ s) s,
    H.checked (fun s => H.offer _ s) s⟩

end Forgets

/-- The receive queue of the transport served is not read before it is drained. -/
theorem forgets_rx (T : Nat) : Forgets (fun s => s.setRx T []) T where
  slots _ := rfl
  offer e s := by apply State.eq_of_fields <;> simp [State.setRx]
  countRequest s := by apply State.eq_of_fields <;> simp [State.setRx]
  emit r s := by apply State.eq_of_fields <;> simp [State.setRx, State.tx]
  setDiscovered s := by apply State.eq_of_fields <;> simp [State.setRx]

/-- The debug toggle and the log are read by no command (10_state.md R42, R47). -/
theorem forgets_debug (T : Nat) : Forgets State.undebugged T where
  slots _ := rfl
  offer e s := by apply State.eq_of_fields <;> simp [State.undebugged]
  countRequest _ := rfl
  emit r s := by apply State.eq_of_fields <;> simp [State.undebugged, State.tx]
  setDiscovered _ := rfl

/-- The other instances are read by no command (10_state.md R51). -/
theorem forgets_peers (T : Nat) (others : List Block) : Forgets (fun s => { s with peers := others }) T where
  slots _ := rfl
  offer e s := by apply State.eq_of_fields <;> simp
  countRequest _ := rfl
  emit r s := by apply State.eq_of_fields <;> simp [State.tx]
  setDiscovered _ := rfl

/-- Two states that look alike once the frame's handling has begun look alike when it has ended. -/
theorem serveFrame_congr {g : State → State} {T : Nat} {f : Frame} {s u : State} (hs : s.transport = some T)
    (hu : u.transport = some T) (H : Forgets g T) (hend : ∀ a b, g a = g b → g (a.endFrame T) = g (b.endFrame T))
    (hbegin : g (s.beginFrame T f) = g (u.beginFrame T f)) :
    seenThrough g (serveFrame T f s) = seenThrough g (serveFrame T f u) := by
  have through (c : State → State)
      (h : ∀ s, g (ifChecksumOk f (dispatch f c) (g s)) = g (ifChecksumOk f (dispatch f c) s)) :
      g (ifChecksumOk f (dispatch f c) (s.beginFrame T f)) = g (ifChecksumOk f (dispatch f c) (u.beginFrame T f)) := by
    rw [← h, hbegin, h]
  by_cases hb : f.b0 = LEN4
  · have hf := frame_eq_requestFrame f hb
    rcases decodeFrame_cases f hb with ⟨hd, hc⟩ | ⟨hd, hc⟩ | ⟨hd, hc⟩ | ⟨hd, -⟩ | ⟨hd, -⟩ <;>
      simp only [serveFrame, hd, execReqDiscover, execReqType, execReqMeasurement, execReqUnhandledLow,
        execReqUnhandledHigh, serveRequest_bound hs, serveRequest_bound hu, seenThrough]
    · rw [← hc, ← hf, hend _ _ (through _ fun s => (H.commands f s).1)]
    · rw [← hc, ← hf, hend _ _ (through _ fun s => (H.commands f s).2.1)]
    · rw [← hc, ← hf, hend _ _ (through _ fun s => (H.commands f s).2.2.1)]
    · rw [← hf, hend _ _ (through _ fun s => (H.commands f s).2.2.2)]
    · rw [← hf, hend _ _ (through _ fun s => (H.commands f s).2.2.2)]
  · simp only [serveFrame, decodeFrame, if_neg hb, seenThrough, dropBadLength]
    have : g ((s.beginFrame T f).offer (.badLength f)) = g ((u.beginFrame T f).offer (.badLength f)) := by
      rw [← H.offer, hbegin, H.offer]
    rw [hend _ _ this]

end Sys2Proof.Machine
end

