-- ==== Sys2Proof/Laws/Issue.lean ====
section
/-! SUPPORT. Laws/Issue.lean: how a transaction is issued and concluded (60_exceptions.md R225, R226): the end of a
transaction touches the receive queue alone, and a transaction that decodes runs. -/

namespace Sys2Proof.Machine

open Sys2Proof

/-- The end of a transaction writes the transports and empties `arriving`, and nothing else. -/
theorem State.settle_eq (s : State) : s.settle = { s with arriving := [], wires := s.settle.wires } := by
  unfold State.settle
  split <;> rfl

@[simp] theorem State.settle_peers (s : State) : s.settle.peers = s.peers := by rw [State.settle_eq]

@[simp] theorem State.settle_toBlock (s : State) : s.settle.toBlock = s.toBlock := by rw [State.settle_eq]

@[simp] theorem State.settle_params (s : State) : s.settle.params = s.params := by rw [State.settle_eq]

@[simp] theorem State.settle_arriving (s : State) : s.settle.arriving = [] := by rw [State.settle_eq]

theorem State.settle_bound {s : State} {T : Nat} (h : s.transport = some T) : s.settle = s.arrive T := by
  simp only [State.settle, h]

theorem State.settle_unbound {s : State} (h : s.transport = none) : s.settle = { s with arriving := [] } := by
  simp only [State.settle, h]

theorem State.wiresWf_settle (s : State) (h : wiresWf s.wires = true) : wiresWf s.settle.wires = true := by
  unfold State.settle
  split
  · exact wiresWf_wirePut _ _ _ h
  · exact h

/-- A transaction that decodes runs when no mark is set. -/
theorem runHost_ok {s : State} {bytes after : List Byte} {i : Instr} (h1 : s.faulted = false) (h2 : s.refused = false)
    (h : decode .host bytes = .ok i after) : runHost bytes s = .next (s.conclude (exec i s)) := by
  simp only [runHost, Block.marked, h1, h2, h]
  rfl

/-- Everything a presentation that goes on can leave: the conclusion of an instruction read at the host port. -/
theorem runHost_next {s t : State} {bytes : List Byte} (h : runHost bytes s = .next t) :
    s.faulted = false ∧ s.refused = false ∧
      ∃ i after, decode .host bytes = .ok i after ∧ t = s.conclude (exec i s) := by
  unfold runHost at h
  split at h
  · cases h
  · next hm =>
    simp only [Block.marked, Bool.or_eq_true, not_or, Bool.not_eq_true] at hm
    split at h
    · next i after hd =>
      cases h
      exact ⟨hm.1, hm.2, i, after, hd, rfl⟩
    · cases h

/-- What is read at the host port is a host transaction (30_encoding.md R94). -/
theorem port_of_decodeHost {bytes after : List Byte} {i : Instr} (h : decodeHost bytes = .ok i after) :
    i.port = .host := by
  cases i <;> try rfl
  all_goals
    exfalso
    rcases bytes with _ | ⟨b, bs⟩
    · simp [decodeHost] at h
    · simp only [decodeHost, decodeHostOp, decodeUpsert, decodeReading] at h
      repeat' split at h
      all_goals cases h

end Sys2Proof.Machine
end

