-- ==== Sys2Proof/Laws/PerInstr.lean ====
section
/-! SUPPORT. Laws/PerInstr.lean: the statements made one instruction at a time. -/

namespace Sys2Proof.Laws.LengthByte

open Sys2Proof Sys2Proof.Machine

/-- In every frame byte 0 equals the frame's length in bytes (30_encoding.md R87); the words of the two internal
interfaces begin with their selector, four bits wide (R94, R96). -/
def Statement (i : Instr) : Prop :=
  ∃ b bytes, encode i = b :: bytes ∧
    (i.port = .request ∨ i.port = .response → b.toNat = (encode i).length) ∧
    (i.port = .host ∨ i.port = .table → b.toNat < 16)

theorem of_frame {i : Instr} {b : Byte} {bytes : List Byte} (he : encode i = b :: bytes)
    (hp : i.port = .request ∨ i.port = .response) (hl : b.toNat = (encode i).length) : Statement i :=
  ⟨b, bytes, he, fun _ => hl, fun h => by rcases hp with hp | hp <;> simp [hp] at h⟩

theorem of_selector {i : Instr} {b : Byte} {bytes : List Byte} (he : encode i = b :: bytes)
    (hp : i.port = .host ∨ i.port = .table) (hs : b.toNat < 16) : Statement i :=
  ⟨b, bytes, he, fun h => (by rcases hp with hp | hp <;> simp [hp] at h), fun _ => hs⟩

theorem reqDiscover (addr : Nibble) (chk : Half) : Statement (.reqDiscover addr chk) :=
  of_frame rfl (.inl rfl) rfl

theorem reqType (addr : Nibble) (chk : Half) : Statement (.reqType addr chk) :=
  of_frame rfl (.inl rfl) rfl

theorem reqMeasurement (addr : Nibble) (chk : Half) : Statement (.reqMeasurement addr chk) :=
  of_frame rfl (.inl rfl) rfl

theorem reqUnhandledLow (cmd addr : Nibble) (chk : Half) : Statement (.reqUnhandledLow cmd addr chk) :=
  of_frame rfl (.inl rfl) rfl

theorem reqUnhandledHigh (cmd addr : Nibble) (chk : Half) : Statement (.reqUnhandledHigh cmd addr chk) :=
  of_frame rfl (.inl rfl) rfl

theorem rspDiscover (addr : Nibble) (chk : Half) : Statement (.rspDiscover addr chk) :=
  of_frame rfl (.inr rfl) rfl

theorem rspType (addr : Nibble) (type : Byte) (chk : Half) : Statement (.rspType addr type chk) :=
  of_frame rfl (.inr rfl) rfl

theorem rspMeasurement (addr : Nibble) (value chk : Half) : Statement (.rspMeasurement addr value chk) :=
  of_frame rfl (.inr rfl) rfl

theorem hostInit (T : Nat) : Statement (.hostInit T) :=
  of_selector rfl (.inl rfl) (by decide)

theorem hostPoll : Statement .hostPoll :=
  of_selector rfl (.inl rfl) (by decide)

theorem hostUpsert (t : Byte) (v : Half) : Statement (.hostUpsert t v) :=
  of_selector rfl (.inl rfl) (by decide)

theorem hostSetKind (k : Kind) (x : Reading) : Statement (.hostSetKind k x) :=
  of_selector rfl (.inl rfl) (by decide)

theorem hostGetReqCount : Statement .hostGetReqCount :=
  of_selector rfl (.inl rfl) (by decide)

theorem hostGetRespCount : Statement .hostGetRespCount :=
  of_selector rfl (.inl rfl) (by decide)

theorem hostGetDiscovered : Statement .hostGetDiscovered :=
  of_selector rfl (.inl rfl) (by decide)

theorem hostSetDebug (e : Bool) : Statement (.hostSetDebug e) :=
  of_selector rfl (.inl rfl) (by decide)

theorem hostGetOccupied : Statement .hostGetOccupied :=
  of_selector rfl (.inl rfl) (by decide)

theorem hostUnassigned (op : Nibble) : Statement (.hostUnassigned op) :=
  of_selector rfl (.inl rfl) (by
    have := op.isLt
    rw [toNat_cmdAddr]
    simp only [BitVec.ofNat_eq_ofNat, BitVec.toNat_ofNat]
    omega)

theorem tblUpsert (t : Byte) (v : Half) : Statement (.tblUpsert t v) :=
  of_selector rfl (.inr rfl) (by decide)

theorem tblFindByType (t : Byte) : Statement (.tblFindByType t) :=
  of_selector rfl (.inr rfl) (by decide)

theorem tblAt (a : Nibble) : Statement (.tblAt a) :=
  of_selector rfl (.inr rfl) (by decide)

theorem tblOccupiedCount : Statement .tblOccupiedCount :=
  of_selector rfl (.inr rfl) (by decide)

end Sys2Proof.Laws.LengthByte
end

