-- ==== Sys2Proof/Laws/RealNumber.lean ====
section
/-! SUPPORT. Laws/RealNumber.lean: a `RealNumber` is a real number, and the exact operations of the set-by-kind conversion
are those of the reals (44_host_interface.md R194). -/

namespace Sys2Proof.RealNumber

open Sys2Proof

/-- Every real number has exactly one form. -/
theorem toReal_bijective : Function.Bijective RealNumber.toReal := by
  constructor
  · intro a b h
    cases a <;> cases b <;> simp only [RealNumber.toReal] at h
    case rational.rational => simpa using h
    case rational.irrational q x hx => exact absurd ⟨q, h⟩ hx
    case irrational.rational x hx q => exact absurd ⟨q, h.symm⟩ hx
    case irrational.irrational => subst h; rfl
  · intro x
    by_cases h : Irrational x
    · exact ⟨.irrational x h, rfl⟩
    · simp only [Irrational, not_not] at h
      obtain ⟨q, hq⟩ := h
      exact ⟨.rational q, hq⟩

@[simp] theorem toReal_plus (x : RealNumber) (q : Rat) : (x.plus q).toReal = x.toReal + q := by
  cases x <;> simp [RealNumber.plus, RealNumber.toReal]

@[simp] theorem toReal_times (x : RealNumber) (q : Rat) (hq : q ≠ 0) :
    (x.times q hq).toReal = x.toReal * q := by
  cases x <;> simp [RealNumber.times, RealNumber.toReal]

end Sys2Proof.RealNumber
end

