-- ==== Sys2Proof/Tests/Slice0.lean ====
section
/-! SUPPORT. Tests/Slice0.lean: ill-formed terms that WellFormed refuses, words written out from the spec's encodings, one
or two steps for each instruction with the results of 95_test_vectors.md, and for every obligation that has hypotheses a
state and operands that meet them. -/

namespace Sys2Proof.Tests

open Sys2Proof Sys2Proof.Machine

/-! ## Small states -/

/-- A fresh instance, with the parameters of 95_test_vectors.md: wide counters, and `CONV_ROUND` and `CONV_RANGE` known at
the points that its section 2.8 uses. -/
def fresh : State :=
  { State.reset with
    params := { cntW := 16, kindMap := 0, rounding := [(508, 508), (650, 650), (-10, -10), (70000, 70000)],
                range := [(-10, .fault), (70000, .store 0xFFFF)] } }

/-- `INIT 0`. -/
def bound : State := { fresh with transport := some 0 }

/-- The start state of sections 2.4 and 2.5: `INIT 0`, `UPSERT 0x00, 508`, `SET_DEBUG 1`. -/
def one : State :=
  { bound with slots := #v[some { type := 0x00, value := 508 }, none, none, none], debugEn := true }

/-- A full table. -/
def full : State :=
  { bound with
    slots := #v[some { type := 0x00, value := 0 }, some { type := 0x01, value := 0 }, some { type := 0x02, value := 0 },
      some { type := 0x03, value := 4660 }] }

/-- A state whose `RX` holds these bytes. -/
def heard (bytes : List Byte) (s : State) : State := { s with wires := [(0, { rx := bytes, tx := [] })] }

/-- Who else is there: an instance bound to transport 7. -/
def beside (s : State) : State := { s with peers := [{ Block.reset with transport := some 7 }] }

/-- What a POLL's row of section 2.4 shows. -/
structure Row where
  tx         : List Byte
  rx         : List Byte
  reqCount   : Nat
  respCount  : Nat
  discovered : Bool
  diag       : List DiagEvent
  deriving DecidableEq, Repr

/-- The row of an outcome, on transport 0. -/
def shown : Host.Outcome State Fault Refusal → Option Row
  | .next s => some ⟨s.tx 0, s.rx 0, s.reqCount, s.respCount, s.discovered, s.diag⟩
  | _ => none

/-- The fault of an outcome. -/
def faultOf : Host.Outcome State Fault Refusal → Option Fault
  | .fault r => some r
  | _ => none

/-- The refusal of an outcome. -/
def refusalOf : Host.Outcome State Fault Refusal → Option Refusal
  | .refused r => some r
  | _ => none

/-- The results a transaction's caller has seen, and the table. -/
def answered : Host.Outcome State Fault Refusal → Option (List Result × Table)
  | .next s => some (s.results, s.slots)
  | _ => none

/-- The marks. -/
def marks : Host.Outcome State Fault Refusal → Option (Bool × Bool × List Result)
  | .next s => some (s.faulted, s.refused, s.results)
  | _ => none

/-! ## WellFormed refuses ill-formed terms -/

theorem test_wf_low_command : Instr.wf (.reqUnhandledLow 0x8 1 0) = false := by decide
theorem test_wf_high_command : Instr.wf (.reqUnhandledHigh 0xA 1 0) = false := by decide
theorem test_wf_discover_address : Instr.wf (.rspDiscover 5 0xFF76) = false := by decide
theorem test_wf_discover_checksum : Instr.wf (.rspDiscover 4 0xFF78) = false := by decide
theorem test_wf_type_address : Instr.wf (.rspType 0 0x00 0xFF67) = false := by decide
theorem test_wf_type_checksum : Instr.wf (.rspType 1 0x00 0xFF6A) = false := by decide
theorem test_wf_measurement_address : Instr.wf (.rspMeasurement 15 0 0xFF4A) = false := by decide
theorem test_wf_measurement_checksum : Instr.wf (.rspMeasurement 1 508 0xFF5A) = false := by decide
theorem test_wf_unassigned_op : Instr.wf (.hostUnassigned 0x8) = false := by decide

/-! ## Words written out from the encodings -/

/-- REQ_DISCOVER 4: `04 84 77 FF` (95_test_vectors.md section 2.2). -/
theorem test_decode_reqDiscover : decodeTableWord 32 0xFF778404 = some (.reqDiscover 4 0xFF77) := by decide
/-- REQ_TYPE 2: `04 92 69 FF`. -/
theorem test_decode_reqType : decodeTableWord 32 0xFF699204 = some (.reqType 2 0xFF69) := by decide
/-- REQ_MEASUREMENT 15: `04 AF 4C FF`. -/
theorem test_decode_reqMeasurement : decodeTableWord 32 0xFF4CAF04 = some (.reqMeasurement 15 0xFF4C) := by decide
/-- REQ CMD 0x7 4: `04 74 87 FF`. -/
theorem test_decode_reqUnhandledLow : decodeTableWord 32 0xFF877404 = some (.reqUnhandledLow 7 4 0xFF87) := by decide
/-- REQ CMD 0xF 12: `04 FC FF FE`. -/
theorem test_decode_reqUnhandledHigh : decodeTableWord 32 0xFEFFFC04 = some (.reqUnhandledHigh 0xF 12 0xFEFF) := by
  decide
/-- RSP_DISC 4: `04 84 77 FF` (section 2.3). -/
theorem test_decode_rspDiscover : decode .response [0x04, 0x84, 0x77, 0xFF] = .ok (.rspDiscover 4 0xFF77) [] := by
  decide
/-- RSP_TYPE 4 0x03: `06 94 03 02 60 FF`. -/
theorem test_decode_rspType : decodeTableWord 48 0xFF6002039406 = some (.rspType 4 0x03 0xFF60) := by decide
/-- RSP_MEAS 3 4660: `06 A3 34 12 10 FF`. -/
theorem test_decode_rspMeasurement : decodeTableWord 48 0xFF101234A306 = some (.rspMeasurement 3 4660 0xFF10) := by
  decide
/-- A response-shaped frame with another second payload byte is no TYPE response (30_encoding.md R85). -/
theorem test_decode_no_response : decode .response [0x06, 0x94, 0x03, 0x03, 0x60, 0xFF] = .reject .noResponse := by decide
/-- A request with length byte 0x05 is none (42_framing.md R143). -/
theorem test_decode_bad_length : decode .request [0x05, 0x91, 0x69, 0xFF] = .reject .badLength := by decide
/-- `op` 0x0 to 0x9 (30_encoding.md R94), operands as in notes/assumptions/5.md. -/
theorem test_decode_hostInit : decode .host [0x00, 0x80, 0x01] = .ok (.hostInit 128) [] := by decide
theorem test_decode_hostPoll : decodeTableWord 4 0x1 = some .hostPoll := by decide
theorem test_decode_hostUpsert : decode .host [0x02, 0x03, 0xB0, 0x04] = .ok (.hostUpsert 0x03 1200) [] := by decide
/-- RPM is kind 3 (30_encoding.md R95); 1200 is `2400` as an integer code, two bytes, over a denominator of 1. -/
theorem test_decode_hostSetKind : decode .host [0x03, 0x03, 0x00, 0xE0, 0x12, 0x00] =
    .ok (.hostSetKind .rpm (.rational 1200)) [] := by decide
/-- The named reading 5 of the temperature. -/
theorem test_decode_hostSetKind_named : decode .host [0x03, 0x02, 0x01, 0x05] = .ok (.hostSetKind .temp (.named 5)) [] := by
  decide
theorem test_decode_hostGetReqCount : decodeTableWord 4 0x4 = some .hostGetReqCount := by decide
theorem test_decode_hostGetRespCount : decodeTableWord 4 0x5 = some .hostGetRespCount := by decide
theorem test_decode_hostGetDiscovered : decodeTableWord 4 0x6 = some .hostGetDiscovered := by decide
theorem test_decode_hostSetDebug : decode .host [0x07, 0x01] = .ok (.hostSetDebug true) [] := by decide
theorem test_decode_hostGetOccupied : decodeTableWord 4 0x8 = some .hostGetOccupied := by decide
theorem test_decode_hostUnassigned : decodeTableWord 4 0x9 = some (.hostUnassigned 0x9) := by decide
theorem test_decode_host_selector : decode .host [0x11] = .reject .badSelector := by decide
/-- `tsel` 0 to 3 (30_encoding.md R96). -/
theorem test_decode_tblUpsert : decode .table [0x00, 0xFF, 0xFF, 0xFF] = .ok (.tblUpsert 0xFF 0xFFFF) [] := by decide
theorem test_decode_tblFindByType : decode .table [0x01, 0x03] = .ok (.tblFindByType 0x03) [] := by decide
theorem test_decode_tblAt : decode .table [0x02, 0x04] = .ok (.tblAt 4) [] := by decide
theorem test_decode_tblOccupiedCount : decodeTableWord 2 0x3 = some .tblOccupiedCount := by decide

/-! ## Checksums (95_test_vectors.md section 2.1) -/

theorem test_chk2_high_byte_drops : chk2 0x04 0xFC = 0xFEFF := by decide
theorem test_chk2_largest : chk2 0xFF 0xFF = 0xFE01 := by decide
theorem test_chk4_type : chk4 0x06 0x91 0x00 0x02 = 0xFF66 := by decide
theorem test_chk4_largest : chk4 0xFF 0xFF 0xFF 0xFF = 0xFC03 := by decide

/-! ## One step for each instruction (95_test_vectors.md sections 2.4 to 2.8) -/

/-- REQ DISCOVER 1 is answered by its echo. -/
theorem test_reqDiscover : shown (step (one.withFetchWord 32 0xFF7A8104)) =
    some ⟨[0x04, 0x81, 0x7A, 0xFF], [], 1, 1, true,
      [.frameSeen ⟨0x04, 0x81, 0x7A, 0xFF⟩, .responseSent [0x04, 0x81, 0x7A, 0xFF]]⟩ := by decide
/-- REQ DISCOVER 2 finds no sensor. -/
theorem test_reqDiscover_absent : shown (step (one.withFetchWord 32 0xFF798204)) =
    some ⟨[], [], 1, 0, false, [.frameSeen ⟨0x04, 0x82, 0x79, 0xFF⟩, .noSensor ⟨0x04, 0x82, 0x79, 0xFF⟩]⟩ := by decide
/-- The source's own scenario. -/
theorem test_reqType : shown (step (one.withFetchWord 32 0xFF6A9104)) =
    some ⟨[0x06, 0x91, 0x00, 0x02, 0x66, 0xFF], [], 1, 1, false,
      [.frameSeen ⟨0x04, 0x91, 0x6A, 0xFF⟩, .responseSent [0x06, 0x91, 0x00, 0x02, 0x66, 0xFF]]⟩ := by decide
/-- Checksum bytes swapped. -/
theorem test_reqType_swapped : shown (step (one.withFetchWord 32 0x6AFF9104)) =
    some ⟨[], [], 0, 0, false, [.frameSeen ⟨0x04, 0x91, 0xFF, 0x6A⟩, .badChecksum ⟨0x04, 0x91, 0xFF, 0x6A⟩]⟩ := by decide
/-- 508 at address 1. -/
theorem test_reqMeasurement : shown (step (one.withFetchWord 32 0xFF5AA104)) =
    some ⟨[0x06, 0xA1, 0xFC, 0x01, 0x5B, 0xFE], [], 1, 1, false,
      [.frameSeen ⟨0x04, 0xA1, 0x5A, 0xFF⟩, .responseSent [0x06, 0xA1, 0xFC, 0x01, 0x5B, 0xFE]]⟩ := by decide
/-- REQ MEAS 15 is ignored. -/
theorem test_reqMeasurement_ignored : shown (step (one.withFetchWord 32 0xFF4CAF04)) =
    some ⟨[], [], 1, 0, false, [.frameSeen ⟨0x04, 0xAF, 0x4C, 0xFF⟩, .addrIgnored ⟨0x04, 0xAF, 0x4C, 0xFF⟩]⟩ := by decide
/-- REQ CMD 0x0 1. -/
theorem test_reqUnhandledLow : shown (step (one.withFetchWord 32 0xFFFA0104)) =
    some ⟨[], [], 1, 0, false, [.frameSeen ⟨0x04, 0x01, 0xFA, 0xFF⟩, .cmdIgnored ⟨0x04, 0x01, 0xFA, 0xFF⟩]⟩ := by decide
/-- REQ CMD 0xF 12: the address is checked first. -/
theorem test_reqUnhandledHigh : shown (step (one.withFetchWord 32 0xFEFFFC04)) =
    some ⟨[], [], 1, 0, false, [.frameSeen ⟨0x04, 0xFC, 0xFF, 0xFE⟩, .addrIgnored ⟨0x04, 0xFC, 0xFF, 0xFE⟩]⟩ := by decide
/-- RSP_DISC 4 (section 2.3). -/
theorem test_rspDiscover : shown (exec (.rspDiscover 4 0xFF77) bound) =
    some ⟨[0x04, 0x84, 0x77, 0xFF], [], 0, 1, false, []⟩ := by decide
/-- RSP_TYPE 4 0xFF, in answer to the request that asks for it. -/
theorem test_rspType : shown (step (bound.withFetchWord 48 0xFE6402FF9406)) =
    some ⟨[0x06, 0x94, 0xFF, 0x02, 0x64, 0xFE], [], 1, 1, false, []⟩ := by decide
/-- RSP_MEAS 4 65535, likewise. -/
theorem test_rspMeasurement : shown (step (bound.withFetchWord 48 0xFD57FFFFA406)) =
    some ⟨[0x06, 0xA4, 0xFF, 0xFF, 0x57, 0xFD], [], 1, 1, false, []⟩ := by decide
/-- INIT binds. -/
theorem test_hostInit : marks (step (fresh.withFetchWord 4 0x0)) = some (false, false, [.done]) := by decide
/-- Two requests in `RX`: only the older is handled. -/
theorem test_hostPoll : shown (exec .hostPoll (heard [0x04, 0xA1, 0x5A, 0xFF, 0x04, 0x91, 0x6A, 0xFF] one)) =
    some ⟨[0x06, 0xA1, 0xFC, 0x01, 0x5B, 0xFE], [], 1, 1, false,
      [.frameSeen ⟨0x04, 0xA1, 0x5A, 0xFF⟩, .responseSent [0x06, 0xA1, 0xFC, 0x01, 0x5B, 0xFE]]⟩ := by decide
/-- The first free slot. -/
theorem test_hostUpsert : answered (exec (.hostUpsert 0x03 1) one) =
    some ([.applied true], #v[some ⟨0x00, 508⟩, some ⟨0x03, 1⟩, none, none]) := by decide
/-- A fifth type is not applied. -/
theorem test_hostUpsert_full : answered (exec (.hostUpsert 0x04 9) full) = some ([.applied false], full.slots) := by decide
/-- 5.08 V is 508 (44_host_interface.md R195). -/
theorem test_hostSetKind : answered (exec (.hostSetKind .intv (.rational (127 / 25))) fresh) =
    some ([.applied true], #v[some ⟨0x00, 508⟩, none, none, none]) := by decide +kernel
/-- -41 degrees is out of range, and the choice for -10 is the fault. -/
theorem test_hostSetKind_fault : faultOf (exec (.hostSetKind .temp (.rational (-41))) fresh) = some .convRange := by decide +kernel
theorem test_hostGetReqCount : answered (exec .hostGetReqCount { one with reqCount := 10 }) =
    some ([.reqCount 10], one.slots) := by decide
theorem test_hostGetRespCount : answered (exec .hostGetRespCount { one with respCount := 7 }) =
    some ([.respCount 7], one.slots) := by decide
theorem test_hostGetDiscovered : answered (exec .hostGetDiscovered one) = some ([.discovered false], one.slots) := by decide
theorem test_hostSetDebug : exec (.hostSetDebug false) one =
    .next { one with debugEn := false, results := [.done] } := rfl
theorem test_hostGetOccupied : answered (exec .hostGetOccupied full) = some ([.occupied 4], full.slots) := by decide
theorem test_hostUnassigned : marks (step (bound.withFetchWord 4 0x9)) =
    some (false, true, [.refused .unassignedOp]) := by decide
/-- A bound type keeps its slot (section 2.6). -/
theorem test_tblUpsert : answered (step (full.withFetchWord 2 0x0)) = some ([.applied true], full.slots) := by decide
theorem test_tblFindByType : answered (exec (.tblFindByType 0x03) full) = some ([.found (some 3)], full.slots) := by decide
theorem test_tblFindByType_notFound : answered (exec (.tblFindByType 0x01) one) = some ([.found none], one.slots) := by
  decide
theorem test_tblAt : answered (exec (.tblAt 4) full) = some ([.slotAt (some 3)], full.slots) := by decide
theorem test_tblAt_five : answered (exec (.tblAt 5) full) = some ([.slotAt none], full.slots) := by decide
theorem test_tblOccupiedCount : answered (step (one.withFetchWord 2 0x3)) = some ([.occupied 1], one.slots) := by decide
/-- Bytes the receiver sends inside a POLL are drained with the rest (95_test_vectors.md program P2). -/
theorem test_arriving_inside : shown (step (heard [0x04, 0x81, 0x7A, 0xFF]
      { one with agenda := [.host [0x01] [0x04, 0x91, 0x6A, 0xFF]] })) =
    some ⟨[0x04, 0x81, 0x7A, 0xFF], [], 1, 1, true,
      [.frameSeen ⟨0x04, 0x81, 0x7A, 0xFF⟩, .responseSent [0x04, 0x81, 0x7A, 0xFF]]⟩ := by decide
/-- A marked instance takes no further transaction. -/
theorem test_marked : faultOf (step { one with faulted := true, agenda := [.host [0x04] []] }) = some .quiescent := by
  decide
/-- INIT of a transport another instance is bound to. -/
theorem test_shared : refusalOf (exec (.hostInit 7) (beside fresh)) = some .sharedTransport := by decide

/-! ## Every obligation's hypotheses can be met -/

theorem witness_DecodeReadsBackEncode :
    Instr.wf (.reqUnhandledLow 0x7 15 0) = true ∧ Instr.wf (.reqUnhandledHigh 0xB 0 0xFFFF) = true ∧
    Instr.wf (.rspDiscover 1 0xFF7A) = true ∧ Instr.wf (.rspDiscover 4 0xFF77) = true ∧
    Instr.wf (.rspType 4 0xFF 0xFE64) = true ∧ Instr.wf (.rspMeasurement 4 0xFFFF 0xFD57) = true ∧
    Instr.wf (.hostUnassigned 0x9) = true ∧ Instr.wf (.hostUnassigned 0xF) = true := by decide

theorem witness_WireWordsHaveOneMeaning :
    Port.request ≠ .host ∧ decode .request [0x04, 0x84, 0x77, 0xFF, 0x00] = .ok (.reqDiscover 4 0xFF77) [0x00] ∧
    decode .response [0x04, 0x84, 0x77, 0xFF] = .ok (.rspDiscover 4 0xFF77) [] ∧
    decode .table [0x02, 0x0F] = .ok (.tblAt 15) [] := by decide

theorem witness_FramesDecodeByCommandNibble :
    (0x05 : Byte) ≠ 0x04 ∧ (0x7 : Nibble).toNat < 0x8 ∧ 0xA < (0xB : Nibble).toNat ∧
    decodeFrame ⟨0x04, (0x7 : Nibble) ++ (0xF : Nibble), 0xFF, 0x00⟩ = some (.reqUnhandledLow 7 15 0x00FF) ∧
    decodeFrame ⟨0x04, (0xB : Nibble) ++ (0x0 : Nibble), 0xFF, 0x00⟩ = some (.reqUnhandledHigh 0xB 0 0x00FF) := by decide

theorem witness_ResponsesRevalidate :
    ∃ s', exec (.reqDiscover 1 0xFF7A) one = .next s' ∧ s'.tx 0 = one.tx 0 ++ [0x04, 0x81, 0x7A, 0xFF] :=
  ⟨_, rfl, by decide⟩

theorem witness_DiscoverResponseEqualsItsRequest :
    (Frame.mk 0x04 0x84 0x77 0xFF).b0 = 0x04 ∧ ((0xFF : Byte) ++ (0x77 : Byte) : Half) = chk2 0x04 0x84 := by decide

theorem witness_UpsertFollowsItsThreeCases :
    TypesDistinct full.slots ∧ full.slots[(3 : Fin CAP)] = some { type := 0x03, value := 4660 } ∧
    (∀ k : Fin CAP, full.slots[k].map Slot.type ≠ some 0x04) ∧ (∀ j : Fin CAP, full.slots[j] ≠ none) ∧
    TypesDistinct one.slots ∧ (∀ k : Fin CAP, one.slots[k].map Slot.type ≠ some 0x03) ∧
    one.slots[(1 : Fin CAP)] = none ∧ (∀ k : Fin CAP, k < 1 → one.slots[k] ≠ none) := by decide

theorem witness_AddressIsOrderOfFirstInsertion :
    OccupiedInitial one.slots ∧ TypesDistinct one.slots ∧ (∀ k : Fin CAP, one.slots[k].map Slot.type ≠ some 0xFF) ∧
    occupiedCount one.slots = (1 : Fin CAP).val ∧ OccupiedInitial full.slots ∧ TypesDistinct full.slots ∧
    full.slots[(3 : Fin CAP)] = some { type := 0x03, value := 4660 } := by decide

theorem witness_FindByTypeAnswersTheOnlyHolder : TypesDistinct full.slots ∧ TypesDistinct fresh.slots := by decide

theorem witness_OccupiedCountCountsTheOccupiedSlots :
    (Instr.hostGetOccupied = .tblOccupiedCount ∨ Instr.hostGetOccupied = .hostGetOccupied) ∧
    occupiedCount fresh.slots = 0 ∧ occupiedCount full.slots = 4 := by decide

theorem witness_BindingsAreNeverClearedOrMoved :
    (∃ s', exec (.hostUpsert 0x03 7) full = .next s') ∧
      full.slots[(3 : Fin CAP)] = some { type := 0x03, value := 4660 } := ⟨⟨_, rfl⟩, by decide⟩

theorem witness_OnlySettersWriteTheTable :
    ∃ s', exec (.tblUpsert 0x03 7) full = .next s' ∧ s'.slots ≠ full.slots := ⟨_, rfl, by decide⟩

/-- DiscoverRequestIsAnswered, at addresses 1 and 4. -/
theorem witness_DiscoverRequestIsAnswered :
    one.transport = some 0 ∧ (1 : Nibble).toNat = (0 : Fin CAP).val + 1 ∧
    one.slots[(0 : Fin CAP)] = some { type := 0x00, value := 508 } ∧ full.transport = some 0 ∧
    (4 : Nibble).toNat = (3 : Fin CAP).val + 1 ∧ full.slots[(3 : Fin CAP)] = some { type := 0x03, value := 4660 } := by
  decide

/-- TypeRequestIsAnswered has the hypotheses of DiscoverRequestIsAnswered, and equations that name its bytes. -/
theorem witness_TypeRequestIsAnswered :
    full.transport = some 0 ∧ (4 : Nibble).toNat = (3 : Fin CAP).val + 1 ∧
    full.slots[(3 : Fin CAP)] = some { type := 0x03, value := 4660 } ∧ 0xFF67 = chk2 0x04 (0x9#4 ++ (4 : Nibble)) ∧
    0xFF60 = chk4 0x06 (0x9#4 ++ (4 : Nibble)) 0x03 0x02 := by decide

/-- MeasurementRequestIsAnswered likewise. -/
theorem witness_MeasurementRequestIsAnswered :
    full.transport = some 0 ∧ (4 : Nibble).toNat = (3 : Fin CAP).val + 1 ∧
    full.slots[(3 : Fin CAP)] = some { type := 0x03, value := 4660 } ∧ 0xFF57 = chk2 0x04 (0xA#4 ++ (4 : Nibble)) ∧
    0xFF0F = chk4 0x06 (0xA#4 ++ (4 : Nibble)) 0x34 0x12 := by decide

/-- UnoccupiedSlotAnswersNothing, at each of the three commands. -/
theorem witness_UnoccupiedSlotAnswersNothing :
    one.transport = some 0 ∧ IsRequest (.reqDiscover 4 0xFF77) 0x8 4 0xFF77 ∧
    IsRequest (.reqType 2 0xFF69) 0x9 2 0xFF69 ∧ IsRequest (.reqMeasurement 4 0xFF57) 0xA 4 0xFF57 ∧
    (4 : Nibble).toNat = (3 : Fin CAP).val + 1 ∧ one.slots[(3 : Fin CAP)] = none ∧
    (2 : Nibble).toNat = (1 : Fin CAP).val + 1 ∧ one.slots[(1 : Fin CAP)] = none ∧
    0xFF77 = chk2 0x04 ((0x8 : Nibble) ++ (4 : Nibble)) ∧ 0xFF69 = chk2 0x04 ((0x9 : Nibble) ++ (2 : Nibble)) ∧
    0xFF57 = chk2 0x04 ((0xA : Nibble) ++ (4 : Nibble)) := by
  simp only [IsRequest]
  decide

/-- ResponsesAreEmittedInsideTheRequest, at each of the three commands. -/
theorem witness_ResponsesAreEmittedInsideTheRequest :
    full.transport = some 0 ∧ (4 : Nibble).toNat = (3 : Fin CAP).val + 1 ∧
    full.slots[(3 : Fin CAP)] = some { type := 0x03, value := 4660 } ∧
    IsRequest (.reqDiscover 4 0xFF77) 0x8 4 0xFF77 ∧ 0xFF77 = chk2 0x04 ((0x8 : Nibble) ++ (4 : Nibble)) ∧
    Instr.wf (.rspDiscover 4 0xFF77) = true ∧
    IsRequest (.reqType 4 0xFF67) 0x9 4 0xFF67 ∧ 0xFF67 = chk2 0x04 ((0x9 : Nibble) ++ (4 : Nibble)) ∧
    Instr.wf (.rspType 4 0x03 0xFF60) = true ∧
    IsRequest (.reqMeasurement 4 0xFF57) 0xA 4 0xFF57 ∧ 0xFF57 = chk2 0x04 ((0xA : Nibble) ++ (4 : Nibble)) ∧
    Instr.wf (.rspMeasurement 4 4660 0xFF0F) = true := by
  simp only [IsRequest]
  decide

/-- UnhandledAddressAnswersNothing, at addresses 0 and 5. -/
theorem witness_UnhandledAddressAnswersNothing :
    one.transport = some 0 ∧ IsRequest (.reqDiscover 0 0xFF7B) 0x8 0 0xFF7B ∧ (0 : Nibble).toNat < 1 ∧
    0xFF7B = chk2 0x04 ((0x8 : Nibble) ++ (0 : Nibble)) ∧ IsRequest (.reqUnhandledHigh 0xF 5 0xFF06) 0xF 5 0xFF06 ∧
    4 < (5 : Nibble).toNat ∧ 0xFF06 = chk2 0x04 ((0xF : Nibble) ++ (5 : Nibble)) := by
  simp only [IsRequest]
  decide

/-- UnhandledCommandAnswersNothing, at commands 0x7 and 0xB and addresses 4 and 1. -/
theorem witness_UnhandledCommandAnswersNothing :
    one.transport = some 0 ∧ IsRequest (.reqUnhandledLow 0x7 4 0xFF87) 0x7 4 0xFF87 ∧ (0x7 : Nibble).toNat < 0x8 ∧
    (4 : Nibble).toNat ≤ 4 ∧ 0xFF87 = chk2 0x04 ((0x7 : Nibble) ++ (4 : Nibble)) ∧
    IsRequest (.reqUnhandledHigh 0xB 1 0xFF4A) 0xB 1 0xFF4A ∧ 0xA < (0xB : Nibble).toNat ∧ 1 ≤ (1 : Nibble).toNat ∧
    0xFF4A = chk2 0x04 ((0xB : Nibble) ++ (1 : Nibble)) := by
  simp only [IsRequest]
  decide

theorem witness_BadChecksumIsDroppedUncounted :
    one.transport = some 0 ∧ IsRequest (.reqType 1 0xFE6A) 0x9 1 0xFE6A ∧
    (0xFE6A : Half) ≠ chk2 0x04 ((0x9 : Nibble) ++ (1 : Nibble)) := by
  simp only [IsRequest]
  decide

theorem witness_ResponseWordsAreEmitted :
    bound.transport = some 0 ∧ (Instr.rspType 4 0xFF 0xFE64).port = .response ∧
    Instr.wf (.rspType 4 0xFF 0xFE64) = true ∧ Instr.wf (.rspMeasurement 1 0 0xFF58) = true ∧
    Instr.wf (.rspDiscover 4 0xFF77) = true := by decide

theorem witness_PollWithoutAFrameIsANoOp :
    (heard [0x04, 0xA1, 0x5A] one).transport = some 0 ∧ ((heard [0x04, 0xA1, 0x5A] one).rx 0).length < 4 := by decide

theorem witness_PollBeforeInitFaults : fresh.transport = none := by decide

theorem witness_WireWordsNeedATransport :
    fresh.transport = none ∧ (Instr.reqDiscover 1 0xFF7A).port = .request ∧
    (Instr.rspDiscover 1 0xFF7A).port = .response := by decide

theorem witness_PollRunsTheRequestItFrames :
    (heard [0x04, 0x91, 0x6A, 0xFF] one).transport = some 0 ∧
    (heard [0x04, 0x91, 0x6A, 0xFF] one).rx 0 = [0x04, 0x91, 0x6A, 0xFF] ∧
    decodeFrame ⟨0x04, 0x91, 0x6A, 0xFF⟩ = some (.reqType 1 0xFF6A) := by decide

theorem witness_PollDropsABadLength :
    (heard [0x05, 0x91, 0x69, 0xFF] one).transport = some 0 ∧
    (heard [0x05, 0x91, 0x69, 0xFF] one).rx 0 = [0x05, 0x91, 0x69, 0xFF] ∧ (0x05 : Byte) ≠ 0x04 := by decide

/-- PollAnswersExactlyWhenItShould: an answered frame, a valid one that is not answered, and an invalid one. -/
theorem witness_PollAnswersExactlyWhenItShould :
    one.transport = some 0 ∧
    (heard [0x04, 0x81, 0x7A, 0xFF] one).rx 0 = [0x04, (0x8 : Nibble) ++ (1 : Nibble), 0x7A, 0xFF] ∧
    ((0xFF : Byte) ++ (0x7A : Byte) : Half) = chk2 0x04 ((0x8 : Nibble) ++ (1 : Nibble)) ∧
    (1 : Nibble).toNat = (0 : Fin CAP).val + 1 ∧ one.slots[(0 : Fin CAP)] ≠ none ∧
    ((0xFF : Byte) ++ (0x77 : Byte) : Half) = chk2 0x04 ((0x8 : Nibble) ++ (4 : Nibble)) ∧
    one.slots[(3 : Fin CAP)] = none ∧
    ((0xFE : Byte) ++ (0x7A : Byte) : Half) ≠ chk2 0x04 ((0x8 : Nibble) ++ (1 : Nibble)) := by decide

theorem witness_FramedPollEndsIdleAndDrained :
    one.transport = some 0 ∧ 4 ≤ ((heard [0x04, 0x91, 0x6A, 0xFF] one).rx 0).length := by decide

theorem witness_BytesArrivingInsideAPollAreDiscarded :
    one.transport = some 0 ∧ 4 ≤ ((heard [0x00, 0x00, 0xFF, 0xFF] one).rx 0).length := by decide

/-- ResponsesNeverOutnumberRequests: a POLL that is answered, with the counts equal before it. -/
theorem witness_ResponsesNeverOutnumberRequests :
    ∃ s s' : State,
      (∀ b ∈ s.toBlock :: s.peers, b.respCount ≤ b.reqCount ∧ b.reqCount + 1 < 2 ^ s.params.cntW) ∧
      step s = .next s' ∧ s'.respCount = 1 :=
  ⟨one.withFetchWord 32 0xFF7A8104, _, by decide, rfl, by decide⟩

theorem witness_InitBindsOnceAndAlone :
    (beside fresh).transport = none ∧ (∀ b ∈ (beside fresh).peers, b.transport ≠ some 6) ∧
    bound.transport = some 0 ∧ ∃ b ∈ (beside fresh).peers, b.transport = some 7 := by decide

/-- SetKindConvertsThenUpserts: the products of three readings, and of one that is named. -/
theorem witness_SetKindConvertsThenUpserts :
    (RealNumber.rational 508).toReal = (readingValue (.rational (127 / 25))).toReal * 100 ∧
    (RealNumber.rational (-10)).toReal = ((readingValue (.rational (-41))).toReal + 40) * 10 ∧
    (RealNumber.rational 70000).toReal = (readingValue (.rational 70000)).toReal ∧
    ∃ y : RealNumber, y.toReal = (readingValue (.named 5)).toReal * 100 := by
  refine ⟨?_, ?_, ?_, ?_⟩
  · norm_num [RealNumber.toReal, readingValue]
  · norm_num [RealNumber.toReal, readingValue]
  · rfl
  · exact ⟨convert .intv (Config.reading 5), by simp [convert, readingValue]⟩

/-- SetKindConvertsThenUpserts: roundings within the range, and out of it on both sides, with both kinds of choice. -/
theorem witness_SetKindConvertsThenUpserts_ranges :
    convRound fresh.params (.rational 508) = 508 ∧ convRound fresh.params (.rational (-10)) = -10 ∧
    convRange fresh.params (-10) = .fault ∧ convRound fresh.params (.rational 70000) = 70000 ∧ (0xFFFF : Int) < 70000 ∧
    convRange fresh.params 70000 = .store 0xFFFF := by decide +kernel

theorem witness_UnassignedOpIsRefused : 0x9 ≤ (0x9 : Nibble).toNat ∧ 0x9 ≤ (0xF : Nibble).toNat := by decide

/-- StepKeepsTheInvariants: a state with an occupied slot and an act to perform. -/
theorem witness_StepKeepsTheInvariants :
    ∃ s s' : State, s.Inv ∧ s.agenda ≠ [] ∧ step s = .next s' :=
  ⟨one.withFetchWord 4 0x1, _, by decide, by decide, rfl⟩

/-- StepRunsThePresentedInstruction: the three outcomes. -/
theorem witness_StepRunsThePresentedInstruction :
    one.faulted = false ∧ one.refused = false ∧ decode .host [0x04] = .ok .hostGetReqCount [] ∧
    (∃ t, exec .hostGetReqCount one = .next t) ∧
    decode .host [0x00, 0x00] = .ok (.hostInit 0) [] ∧ exec (.hostInit 0) one = .fault .rebind ∧
    decode .host [0x09] = .ok (.hostUnassigned 0x9) [] ∧ exec (.hostUnassigned 0x9) one = .refused .unassignedOp :=
  ⟨rfl, rfl, by decide, ⟨_, rfl⟩, by decide, rfl, by decide, rfl⟩

/-- EngineActsOnlyInsideAHostTransaction: the receiver's act, a construction, and nothing to do. -/
theorem witness_EngineActsOnlyInsideAHostTransaction :
    ∀ a ∈ [[Move.receiver 0 [0x04]], [.construct], [.turn], [.restart], []],
      (∀ bytes late, ({ beside one with agenda := a } : State).agenda.head? ≠ some (.host bytes late)) ∧
      ∃ s', step { beside one with agenda := a } = .next s' := by
  simp only [List.mem_cons, List.not_mem_nil, or_false, forall_eq_or_imp, forall_eq]
  exact ⟨⟨nofun, _, rfl⟩, ⟨nofun, _, rfl⟩, ⟨nofun, _, rfl⟩, ⟨nofun, _, rfl⟩, nofun, _, rfl⟩

theorem witness_LateBytesReachTheReceiveQueue : bound.transport = some 0 ∧ fresh.transport = none := by decide

theorem witness_FaultAndRefusalLeaveOnlyTheMark :
    one.faulted = false ∧ one.refused = false ∧ decode .host [0x00, 0x00] = .ok (.hostInit 0) [] ∧
    exec (.hostInit 0) { one with arriving := [0x04] } = .fault .rebind ∧
    decode .host [0x0F] = .ok (.hostUnassigned 0xF) [] ∧
    exec (.hostUnassigned 0xF) { one with arriving := [0x04] } = .refused .unassignedOp :=
  ⟨rfl, rfl, by decide, rfl, by decide, rfl⟩

theorem witness_InstructionsThatGoOnLeaveTheMarks :
    ∃ s', exec .hostGetReqCount { one with faulted := true } = .next s' := ⟨_, rfl⟩

theorem witness_MarkedInstanceTakesNoTransaction :
    ({ one with faulted := true, agenda := [.host [0x04] []] } : State).agenda = [.host [0x04] []] ∧
    ({ one with faulted := true } : State).faulted = true ∧ ({ one with refused := true } : State).refused = true := by
  decide

/-- AMarkedRunIsNeverFinalAgain: a step of a final run that stays final, beside a marked instance that is not. -/
theorem witness_AMarkedRunIsNeverFinalAgain :
    ∃ s s' : State, s.agenda.head? ≠ some .restart ∧ step s = .next s' ∧ s'.toBlock.final = true ∧
      ∃ b ∈ s'.peers, b.final = false :=
  ⟨{ one.withFetchWord 4 0x4 with peers := [{ Block.reset with faulted := true }] }, _, by decide, rfl, by decide, by decide⟩

theorem witness_ReceiverAppendsBetweenTransactions :
    ({ one with agenda := [.receiver 0 [0x04]] } : State).agenda = [.receiver 0 [0x04]] := by decide

theorem witness_ConstructionLeavesResetValues :
    ({ one with agenda := [.construct] } : State).agenda = [.construct] ∧
    ({ one with agenda := [.restart] } : State).agenda = [.restart] ∧
    ({ beside one with agenda := [.turn] } : State).agenda = [.turn] ∧
    (beside one).peers = [{ Block.reset with transport := some 7 }] ∧ one.agenda = [] := by decide

theorem witness_DebugToggleNeverAffectsProtocol :
    ∃ s', exec (.hostSetDebug false) one = .next s' ∧ s'.debugEn ≠ one.debugEn := ⟨_, rfl, by decide⟩

theorem witness_TransactionsTouchOnlyTheirInstance :
    (∃ s', exec .hostPoll (beside one) = .next s') ∧ (beside one).transport ≠ some 7 ∧
    ∀ T, Instr.hostPoll ≠ .hostInit T := ⟨⟨_, rfl⟩, by decide, fun _ => nofun⟩

theorem witness_OnlyPollMovesCountersAndWires :
    (Instr.hostUpsert 0x00 1).port = .host ∧ Instr.hostUpsert 0x00 1 ≠ .hostPoll ∧
    ∃ s', exec (.hostUpsert 0x00 1) one = .next s' := ⟨rfl, nofun, _, rfl⟩

/-- UpsertedValueIsWhatIsAnswered: a type that is bound, and a new one with a free slot left. -/
theorem witness_UpsertedValueIsWhatIsAnswered :
    full.transport = some 0 ∧ full.slots[(3 : Fin CAP)] = some { type := 0x03, value := 4660 } ∧
    one.transport = some 0 ∧ one.slots[(1 : Fin CAP)] = none := by decide

/-- DiscoveredIsPermanent: a request on its own, and the POLL that frames it. -/
theorem witness_DiscoveredIsPermanent :
    (∃ s', exec (.reqDiscover 1 0xFF7A) one = .next s' ∧ one.discovered = false ∧ s'.discovered = true) ∧
    ∃ s', exec .hostPoll (heard [0x04, 0x81, 0x7A, 0xFF] one) = .next s' ∧ one.discovered = false ∧
      s'.discovered = true :=
  ⟨⟨_, rfl, rfl, by decide⟩, _, rfl, rfl, by decide⟩

end Sys2Proof.Tests
end

section
/-! PROOFS. 00_scope.md: the admissible kind codes (R13), the set-by-kind conversion (R14), and the engine acting inside
host transactions alone (R16). -/

namespace Sys2Proof.Machine

open Sys2Proof

/-! ## The kind codes (00_scope.md R13) -/

/-- The four kinds, in the source's order. -/
def kinds : List Kind := [.intv, .extv, .temp, .rpm]

theorem mem_kinds (a : Kind) : a ∈ kinds := by cases a <;> decide

/-- Every map the parameter names gives the four kinds four codes. -/
theorem kindCode_nodup : ∀ m : Fin 6, (kinds.map (kindCode m)).Nodup := by decide

theorem kindCode_injective (m : Fin 6) : Function.Injective (kindCode m) := fun a b h =>
  List.inj_on_of_nodup_map (kindCode_nodup m) (mem_kinds a) (mem_kinds b) h

theorem kindCode_toNat_le (m : Fin 6) (a : Kind) : (kindCode m a).toNat ≤ 0x03 := by
  have h : ∀ m : Fin 6, ∀ a ∈ kinds, (kindCode m a).toNat ≤ 0x03 := by decide
  exact h m a (mem_kinds a)

/-- The codes that are left for the three kinds other than INTV. -/
def codesBesideIntv : List Byte := [0x01, 0x02, 0x03]

theorem mem_codesBesideIntv {b : Byte} (h0 : b ≠ 0x00) (hle : b.toNat ≤ 0x03) : b ∈ codesBesideIntv := by
  simp only [codesBesideIntv, List.mem_cons, List.not_mem_nil, or_false]
  bv_omega

/-- Every arrangement of three distinct codes for EXTV, TEMP and RPM is one that the parameter names. -/
theorem exists_kindCode_arrangement :
    ∀ e ∈ codesBesideIntv, ∀ t ∈ codesBesideIntv, ∀ r ∈ codesBesideIntv, e ≠ t → e ≠ r → t ≠ r →
      ∃ m : Fin 6, kindCode m .extv = e ∧ kindCode m .temp = t ∧ kindCode m .rpm = r := by decide

/-- An injective map into 0x00 to 0x03 with INTV at 0x00 is one that the parameter names. -/
theorem exists_kindCode_eq {f : Kind → Byte} (h0 : f .intv = 0x00) (hinj : Function.Injective f)
    (hle : ∀ a, (f a).toNat ≤ 0x03) : ∃ m, f = kindCode m := by
  have hmem {a : Kind} (ha : a ≠ .intv) : f a ∈ codesBesideIntv :=
    mem_codesBesideIntv (h0 ▸ hinj.ne ha) (hle a)
  obtain ⟨m, hextv, htemp, hrpm⟩ := exists_kindCode_arrangement
    (f .extv) (hmem nofun) (f .temp) (hmem nofun) (f .rpm) (hmem nofun)
    (hinj.ne nofun) (hinj.ne nofun) (hinj.ne nofun)
  refine ⟨m, funext fun a => ?_⟩
  cases a with
  | intv => exact h0
  | extv => exact hextv.symm
  | temp => exact htemp.symm
  | rpm => exact hrpm.symm

/-- Settles O38: the six named maps are admissible, and an admissible map is one of the six arrangements. -/
theorem kindCodesAreTheAdmissibleMaps : Obligations.KindCodesAreTheAdmissibleMaps := by
  intro f
  constructor
  · rintro ⟨m, rfl⟩
    exact ⟨rfl, kindCode_injective m, kindCode_toNat_le m⟩
  · rintro ⟨h0, hinj, hle⟩
    exact exists_kindCode_eq h0 hinj hle

/-! ## The set-by-kind conversion (00_scope.md R14, 44_host_interface.md R194, R195) -/

/-- The product of the conversion is the only real number that R194 describes for the kind. -/
theorem eq_convert {k : Kind} {x y : RealNumber} (hvolt : k = .intv ∨ k = .extv → y.toReal = x.toReal * 100)
    (htemp : k = .temp → y.toReal = (x.toReal + 40) * 10) (hrpm : k = .rpm → y.toReal = x.toReal) :
    y = convert k x := by
  apply RealNumber.toReal_bijective.injective
  cases k with
  | intv => simp [convert, hvolt]
  | extv => simp [convert, hvolt]
  | temp => simp [convert, htemp]
  | rpm => exact hrpm rfl

/-- A rounded product that is a 16-bit value is stored as it is. -/
theorem converted_of_inRange {p : Params} {k : Kind} {x : Reading} {n : Int}
    (hn : n = convRound p (convert k (readingValue x))) (h0 : 0 ≤ n) (hmax : n ≤ 0xFFFF) :
    converted p k x = .store (BitVec.ofInt 16 n) := by
  have hbits : BitVec.ofNat 16 n.toNat = BitVec.ofInt 16 n := by
    rw [← BitVec.ofInt_natCast, Int.toNat_of_nonneg h0]
  rw [converted, ← hn, ← hbits]
  exact if_neg (by omega)

/-- Of a rounded product that is no 16-bit value, `CONV_RANGE` says what becomes. -/
theorem converted_of_outOfRange {p : Params} {k : Kind} {x : Reading} {n : Int}
    (hn : n = convRound p (convert k (readingValue x))) (h : n < 0 ∨ 0xFFFF < n) :
    converted p k x = convRange p n := by
  rw [converted, ← hn]
  exact if_pos h

/-- SET_KIND that stores is the UPSERT of what it stores under the kind's code. -/
theorem exec_hostSetKind_of_store {s : State} {k : Kind} {x : Reading} {v : Half}
    (h : converted s.params k x = .store v) :
    exec (.hostSetKind k x) s = exec (.hostUpsert (kindCode s.params.kindMap k) v) s := by
  simp only [exec, execHostSetKind, execHostUpsert, h]

theorem exec_hostSetKind_of_fault {s : State} {k : Kind} {x : Reading} (h : converted s.params k x = .fault) :
    exec (.hostSetKind k x) s = .fault .convRange := by
  simp only [exec, execHostSetKind, h]

/-- UPSERT always goes on (44_host_interface.md R192). -/
theorem exec_hostUpsert (t : Byte) (v : Half) (s : State) :
    exec (.hostUpsert t v) s = .next (upsertAnswered t v s) := rfl

/-- Settles O37: the described product is `convert`'s, and `converted` is then the value stored or the fault. -/
theorem setKindConvertsThenUpserts : Obligations.SetKindConvertsThenUpserts := by
  rintro s k x _ y n rfl hvolt htemp hrpm hn
  obtain rfl := eq_convert hvolt htemp hrpm
  have upserts {v : Half} (hv : converted s.params k x = .store v) :
      ∃ s', exec (.hostSetKind k x) s = .next s' ∧
        exec (.hostUpsert (kindCode s.params.kindMap k) v) s = .next s' :=
    ⟨_, exec_hostSetKind_of_store hv, exec_hostUpsert _ v s⟩
  refine ⟨fun h0 hmax => upserts (converted_of_inRange hn h0 hmax), fun hout => ?_⟩
  have hrange := converted_of_outOfRange hn hout
  exact ⟨fun v hv => upserts (hrange.trans hv), fun hfault => exec_hostSetKind_of_fault (hrange.trans hfault)⟩

/-! ## Acts other than a host transaction (00_scope.md R16) -/

/-- The engine did not act between `s` and `t`: nothing was transmitted, every block is as it was or just constructed,
and neither the parameters nor the bytes on their way have changed. -/
structure EngineAtRest (s t : State) : Prop where
  tx : ∀ T, t.tx T = s.tx T
  blocks : ∀ b ∈ t.toBlock :: t.peers, b = Block.reset ∨ b ∈ s.toBlock :: s.peers
  params : t.params = s.params
  arriving : t.arriving = s.arriving

theorem engineAtRest_refl (s : State) : EngineAtRest s s := ⟨fun _ => rfl, fun _ => .inr, rfl, rfl⟩

theorem engineAtRest_rxAppend (s : State) (T : Nat) (bs : List Byte) : EngineAtRest s (s.rxAppend T bs) :=
  ⟨fun T' => State.tx_setRx s T T' _, fun _ => .inr, rfl, rfl⟩

theorem engineAtRest_turnToNext (s : State) : EngineAtRest s s.turnToNext := by
  unfold State.turnToNext
  split
  next => exact engineAtRest_refl s
  next b rest hpeers =>
    refine ⟨fun _ => rfl, fun c hc => .inr ?_, rfl, rfl⟩
    simp only [List.mem_cons, List.mem_append, List.not_mem_nil, or_false] at hc
    simp only [hpeers, List.mem_cons]
    tauto

theorem engineAtRest_constructNew (s : State) : EngineAtRest s s.constructNew :=
  ⟨fun _ => rfl, fun _ => List.mem_cons.1, rfl, rfl⟩

theorem engineAtRest_restartBlock (s : State) : EngineAtRest s s.restartBlock :=
  ⟨fun _ => rfl, fun _ hb => (List.mem_cons.1 hb).imp_right (List.mem_cons_of_mem _), rfl, rfl⟩

/-- An act that presents no host transaction leaves the engine at rest. -/
theorem engineAtRest_perform {m : Move} {s t : State} (hm : ∀ bytes late, m ≠ .host bytes late)
    (h : perform m s = .next t) : EngineAtRest s t := by
  cases m with
  | host bytes late => exact absurd rfl (hm bytes late)
  | receiver T bytes => cases h; exact engineAtRest_rxAppend s T bytes
  | turn => cases h; exact engineAtRest_turnToNext s
  | construct => cases h; exact engineAtRest_constructNew s
  | restart => cases h; exact engineAtRest_restartBlock s

/-- What is still to come plays no part in whether the engine acted. -/
theorem EngineAtRest.of_agenda {s t : State} {rest : List Move} (h : EngineAtRest { s with agenda := rest } t) :
    EngineAtRest s t := ⟨h.tx, h.blocks, h.params, h.arriving⟩

theorem engineAtRest_step {s t : State} (hm : ∀ bytes late, s.agenda.head? ≠ some (.host bytes late))
    (h : step s = .next t) : EngineAtRest s t := by
  unfold step at h
  split at h
  next => cases h; exact engineAtRest_refl s
  next m rest hagenda =>
    have hnot (bytes late : List Byte) : m ≠ .host bytes late := by simpa [hagenda] using hm bytes late
    exact (engineAtRest_perform hnot h).of_agenda

/-- Settles O44: a step performs the first act of the agenda, and each of the four acts left is looked at once. -/
theorem engineActsOnlyInsideAHostTransaction : Obligations.EngineActsOnlyInsideAHostTransaction := by
  intro s s' hm h
  have hrest := engineAtRest_step hm h
  exact ⟨hrest.tx, hrest.blocks, hrest.params, hrest.arriving⟩

end Sys2Proof.Machine
end

section
/-! PROOFS. 10_state.md: the reset values (R48, R49), what every step keeps (R32, R33, R37, R38, R44), the bindings
(R32, R33, R35), the flags (R41, R42), what stands beside the block in hand (R51), and the marks (R52). -/

namespace Sys2Proof.Machine

open Sys2Proof

/-! ## What the handling of a frame leaves -/

/-- What the handling of a frame on transport `T` leaves, field by field (42_framing.md R140). -/
structure FrameHandled (T : Nat) (s t : State) : Prop where
  slots : t.slots = s.slots
  reqCount : t.reqCount = s.reqCount ∨ t.reqCount = nextCount s.params s.reqCount
  respCount : t.respCount = s.respCount ∨ t.respCount = nextCount s.params s.respCount
  discovered : s.discovered = true → t.discovered = true
  debugEn : t.debugEn = s.debugEn
  transport : t.transport = s.transport
  fsm : t.fsm = .idle
  frame : t.frame = none
  faulted : t.faulted = s.faulted
  refused : t.refused = s.refused
  results : t.results = s.results
  peers : t.peers = s.peers
  wires : ∃ w, t.wires = wirePut s.wires T w
  agenda : t.agenda = s.agenda
  params : t.params = s.params

theorem Served.frameHandled {T : Nat} {f : Frame} {s m : State} (h : Served T (s.beginFrame T f) m) :
    FrameHandled T s (m.endFrame T) := by
  cases h with
  | dropped e => constructor <;> simp
  | silent e => constructor <;> simp
  | answered r h hr => constructor <;> simp
  | discovered r h hr => constructor <;> simp

/-- Taking the frame out of `RX` before it is handled changes nothing of this. -/
theorem FrameHandled.of_setRx {T : Nat} {s t : State} {rest : List Byte} (h : FrameHandled T (s.setRx T rest) t) :
    FrameHandled T s t :=
  { h with wires := by simpa using h.wires }

/-- An upsert writes the table, the log and its result, and nothing else (40_sensor_table.md R110, R117). -/
theorem upsertAnswered_eq (t : Byte) (v : Half) (s : State) :
    upsertAnswered t v s = { s with
      slots := (upsert t v s).1.slots, diag := (upsert t v s).1.diag,
      results := s.results ++ [.applied (upsert t v s).2] } := by
  rcases upsert_cases t v s with ⟨i, v0, -, -, e⟩ | ⟨j, -, -, e⟩ | ⟨-, -, e⟩ <;>
    simp only [upsertAnswered, e] <;> apply State.eq_of_fields <;> simp

/-! ## What every instruction that goes on keeps -/

/-- What an instruction that goes on keeps, or changes in one way only, whatever instruction it is. -/
structure Carried (s t : State) : Prop where
  reqCount : t.reqCount = s.reqCount ∨ t.reqCount = nextCount s.params s.reqCount
  respCount : t.respCount = s.respCount ∨ t.respCount = nextCount s.params s.respCount
  discovered : s.discovered = true → t.discovered = true
  fsm : s.fsm = .idle → t.fsm = .idle
  frame : s.frame = none → t.frame = none
  faulted : t.faulted = s.faulted
  refused : t.refused = s.refused
  results : s.results <+: t.results
  peers : t.peers = s.peers
  wires : t.wires = s.wires ∨ ∃ T w, s.transport = some T ∧ t.wires = wirePut s.wires T w
  agenda : t.agenda = s.agenda
  params : t.params = s.params

theorem Carried.refl (s : State) : Carried s s := by constructor <;> simp

theorem Carried.answer {s t : State} (h : Carried s t) (r : Result) : Carried s (t.answer r) :=
  { h with results := h.results.trans (List.prefix_append _ _) }

theorem FrameHandled.carried {T : Nat} {s t : State} (h : FrameHandled T s t) (hT : s.transport = some T) :
    Carried s t :=
  { h with
    fsm := fun _ => h.fsm
    frame := fun _ => h.frame
    results := by rw [h.results]
    wires := h.wires.elim fun w hw => .inr ⟨T, w, hT, hw⟩ }

theorem carried_emit {T : Nat} {s : State} (hT : s.transport = some T) (r : List Byte) : Carried s (s.emit T r) := by
  constructor
  case wires => exact .inr ⟨T, _, hT, State.emit_wires s T r⟩
  all_goals simp

theorem Ran.carried {s t : State} {i : Instr} (h : Ran s i t) : Carried s t := by
  cases h with
  | request T f m hp hT h hd => exact h.frameHandled.carried hT
  | response T r hp hT hr => exact carried_emit hT r
  | init T hT hp => exact { Carried.refl s with results := List.prefix_append _ _ }
  | pollIdle T hT h => exact (Carried.refl s).answer _
  | poll T f rest m hT hrx h => exact (h.frameHandled.of_setRx.carried hT).answer _
  | setDebug e => exact { Carried.refl s with results := List.prefix_append _ _ }
  | upsert t v hi =>
    rw [upsertAnswered_eq]
    exact { Carried.refl s with results := List.prefix_append _ _ }
  | read r hp hi => exact (Carried.refl s).answer r

/-! ## Bindings (10_state.md R32, R33, R35) -/

/-- The table is as before, or the instruction is one of the three setters and did an upsert. -/
theorem Ran.slots {s t : State} {i : Instr} (h : Ran s i t) :
    t.slots = s.slots ∨ ∃ ty v, t.slots = (Machine.upsert ty v s).1.slots ∧
      (i = .hostUpsert ty v ∨ (∃ k x, i = .hostSetKind k x) ∨ i = .tblUpsert ty v) := by
  cases h with
  | request T f m hp hT h hd => exact .inl h.frameHandled.slots
  | response T r hp hT hr => exact .inl (State.emit_slots s T r)
  | init T hT hp => exact .inl rfl
  | pollIdle T hT h => exact .inl rfl
  | poll T f rest m hT hrx h => exact .inl h.frameHandled.slots
  | setDebug e => exact .inl rfl
  | upsert ty v hi => exact .inr ⟨ty, v, rfl, hi⟩
  | read r hp hi => exact .inl rfl

/-- An upsert overwrites the value of its own type's slot, or fills a free slot. -/
theorem upsert_keeps_binding (t : Byte) (v : Half) (s : State) {k : Fin CAP} {slot : Slot}
    (hk : s.slots[k] = some slot) :
    ∃ v', (upsert t v s).1.slots[k] = some { type := slot.type, value := v' } := by
  rcases upsert_cases t v s with ⟨i, v0, -, hi, e⟩ | ⟨j, -, hj, e⟩ | ⟨-, -, e⟩ <;> rw [e]
  · by_cases hki : k = i
    · subst hki
      obtain rfl := Option.some.inj (hk.symm.trans hi)
      exact ⟨v, table_set_same _ _ _⟩
    · exact ⟨slot.value, (table_set_other _ _ _ _ hki).trans hk⟩
  · have hkj : k ≠ j := by
      rintro rfl
      exact Option.some_ne_none _ (hk.symm.trans ((firstFree_eq_some _ _).1 hj).1)
    exact ⟨slot.value, (table_set_other _ _ _ _ hkj).trans hk⟩
  · exact ⟨slot.value, by simpa using hk⟩

/-- Settles O14: only an upsert writes the table, and an upsert keeps every binding. -/
theorem bindingsAreNeverClearedOrMoved : Obligations.BindingsAreNeverClearedOrMoved := by
  intro i s s' h k slot hk
  rcases (exec_ran h).slots with hsame | ⟨ty, v, hupsert, -⟩
  · exact ⟨slot.value, by rw [hsame, hk]⟩
  · rw [hupsert]
    exact upsert_keeps_binding ty v s hk

/-- Settles O15: an instruction that leaves another table is one of the three that upsert. -/
theorem onlySettersWriteTheTable : Obligations.OnlySettersWriteTheTable := by
  intro i s s' h hne
  rcases (exec_ran h).slots with hsame | ⟨ty, v, -, hi | hi | hi⟩
  · exact absurd hsame hne
  · exact .inl ⟨ty, v, hi⟩
  · exact .inr (.inl hi)
  · exact .inr (.inr ⟨ty, v, hi⟩)

/-! ## The marks and a final run (10_state.md R52) -/

/-- Settles O47: the marks are among what every instruction carries over. -/
theorem instructionsThatGoOnLeaveTheMarks : Obligations.InstructionsThatGoOnLeaveTheMarks := by
  intro i s s' h
  have hc := (exec_ran h).carried
  exact ⟨hc.faulted, hc.refused⟩

theorem runHost_of_marked {s : State} (h : s.marked = true) (bytes : List Byte) :
    runHost bytes s = .fault .quiescent := by
  simp only [runHost, h, if_true]

theorem step_cons {s : State} {m : Move} {rest : List Move} (h : s.agenda = m :: rest) :
    step s = perform m { s with agenda := rest } := by
  simp only [step, h]

theorem step_nil {s : State} (h : s.agenda = []) : step s = .next s := by
  simp only [step, h]

/-- Settles O49: the first act is the presentation, and the mark is looked at before the bytes are. -/
theorem markedInstanceTakesNoTransaction : Obligations.MarkedInstanceTakesNoTransaction := by
  intro s rest bytes late hagenda hmark
  rw [step_cons hagenda]
  exact runHost_of_marked (s := { s with agenda := rest, arriving := late }) (Bool.or_eq_true_iff.2 hmark) bytes

/-- How the conclusion of an instruction comes about: it went on, or a mark was set (60_exceptions.md R226). -/
theorem conclude_exec_cases (i : Instr) (s : State) :
    (∃ t, Ran s i t ∧ s.conclude (exec i s) = t.settle) ∨
    (∃ r, s.conclude (exec i s) = (s.markFaulted r).settle) ∨
    ∃ r, s.conclude (exec i s) = (s.markRefused r).settle := by
  cases h : exec i s with
  | next t => exact .inl ⟨t, exec_ran h, rfl⟩
  | fault r => exact .inr (.inl ⟨r, rfl⟩)
  | refused r => exact .inr (.inr ⟨r, rfl⟩)

theorem conclude_exec_peers (i : Instr) (s : State) : (s.conclude (exec i s)).peers = s.peers := by
  rcases conclude_exec_cases i s with ⟨t, ht, e⟩ | ⟨r, e⟩ | ⟨r, e⟩ <;> rw [e, State.settle_peers]
  · exact ht.carried.peers
  · rfl
  · rfl

/-- A run that is final was final before its last transactions. -/
theorem Carried.final {s t : State} (h : Carried s t) (hfinal : t.toBlock.final = true) : s.toBlock.final = true := by
  obtain ⟨more, hmore⟩ := h.results
  simp only [Block.final, Block.marked, h.faulted, h.refused, ← hmore, List.all_append, Bool.and_eq_true] at hfinal ⊢
  exact ⟨hfinal.1.1, hfinal.2⟩

theorem final_markFaulted (r : Fault) (s : State) : (s.markFaulted r).toBlock.final = false := by
  simp [Block.final, Block.marked, State.markFaulted]

theorem final_markRefused (r : Refusal) (s : State) : (s.markRefused r).toBlock.final = false := by
  simp [Block.final, Block.marked, State.markRefused]

/-- A transaction makes no run final. -/
theorem final_of_conclude_exec {i : Instr} {s : State} (h : (s.conclude (exec i s)).toBlock.final = true) :
    s.toBlock.final = true := by
  rcases conclude_exec_cases i s with ⟨t, ht, e⟩ | ⟨r, e⟩ | ⟨r, e⟩ <;> rw [e, State.settle_toBlock] at h
  · exact ht.carried.final h
  · exact absurd h (by simp [final_markFaulted])
  · exact absurd h (by simp [final_markRefused])

/-- The blocks of `t` are those of `s` in some order, but for the one in hand, which is final only if it was final
before, and for one that may have been constructed. -/
def RunsKept (s t : State) : Prop :=
  ∃ (b : Block) (new : List Block), (t.toBlock :: t.peers).Perm (b :: (new ++ s.peers)) ∧
    (new = [] ∨ new = [Block.reset]) ∧ (b.final = true → s.toBlock.final = true)

theorem RunsKept.of_perm {s t : State} (h : (t.toBlock :: t.peers).Perm (s.toBlock :: s.peers)) : RunsKept s t :=
  ⟨s.toBlock, [], h, .inl rfl, id⟩

/-- Turning to the next block only reorders the blocks. -/
theorem turnToNext_perm (s : State) : (s.turnToNext.toBlock :: s.turnToNext.peers).Perm (s.toBlock :: s.peers) := by
  unfold State.turnToNext
  split
  next => exact .refl _
  next b rest hpeers =>
    rw [hpeers]
    exact ((List.perm_append_singleton s.toBlock rest).cons b).trans (.swap _ _ _)

theorem runsKept_constructNew (s : State) : RunsKept s s.constructNew :=
  ⟨s.toBlock, [Block.reset], .swap _ _ _, .inr rfl, id⟩

theorem runsKept_runHost {s t : State} {bytes : List Byte} (h : runHost bytes s = .next t) : RunsKept s t := by
  obtain ⟨-, -, i, -, -, rfl⟩ := runHost_next h
  exact ⟨_, [], by rw [conclude_exec_peers]; exact .refl _, .inl rfl, final_of_conclude_exec⟩

theorem runsKept_perform {m : Move} {s t : State} (hm : m ≠ .restart) (h : perform m s = .next t) : RunsKept s t := by
  cases m with
  | host bytes late => exact runsKept_runHost (s := { s with arriving := late }) h
  | receiver T bytes => cases h; exact .of_perm (.refl _)
  | turn => cases h; exact .of_perm (turnToNext_perm s)
  | construct => cases h; exact runsKept_constructNew s
  | restart => exact absurd rfl hm

/-- Settles O48: a step performs the first act, and each act but a restart keeps the runs. -/
theorem aMarkedRunIsNeverFinalAgain : Obligations.AMarkedRunIsNeverFinalAgain := by
  intro s s' hm h
  cases hagenda : s.agenda with
  | nil =>
    rw [step_nil hagenda] at h
    cases h
    exact RunsKept.of_perm (.refl _)
  | cons m rest =>
    rw [step_cons hagenda] at h
    exact runsKept_perform (s := { s with agenda := rest }) (by simpa [hagenda] using hm) h

/-! ## Reset and construction (10_state.md R48, R49, R50) -/

theorem reset_slots (k : Fin CAP) : State.reset.slots[k] = none := by
  revert k
  decide

/-- Settles O40: the values stand in the definition of the reset state, and `CNT_W` there is one more than a natural. -/
theorem resetLeavesTheStatedValues : Obligations.ResetLeavesTheStatedValues :=
  ⟨reset_slots, rfl, rfl, rfl, rfl, rfl, rfl, rfl, rfl, rfl, rfl, Nat.succ_pos _, rfl⟩

theorem reset_unoccupied (k : Fin CAP) : occupied Block.reset.slots k = false := by
  revert k
  decide

/-- A block just constructed meets the invariant, whatever the parameters are. -/
theorem inv_reset (p : Params) : Block.reset.Inv p :=
  ⟨fun _ j _ hj => absurd hj (by simp [reset_unoccupied]), fun i _ _ hi => absurd hi (by simp [reset_unoccupied]),
    Nat.two_pow_pos _, Nat.two_pow_pos _, rfl, rfl⟩

/-- Settles O41: the one block is just constructed and nothing stands beside it. -/
theorem resetSatisfiesTheInvariants : Obligations.ResetSatisfiesTheInvariants :=
  ⟨⟨inv_reset _, nofun, List.pairwise_singleton _ _, rfl, rfl⟩, reset_unoccupied⟩

/-- Settles O51: each clause is the first act of the agenda, performed. -/
theorem constructionLeavesResetValues : Obligations.ConstructionLeavesResetValues := by
  intro s rest
  refine ⟨fun h => step_cons h, fun h => step_cons h, fun b bs h hpeers => ?_, step_nil⟩
  rw [step_cons h]
  simp only [perform, State.turnToNext, hpeers]

/-! ## The invariant (10_state.md R32, R33, R37, R38, R44, 60_exceptions.md R243) -/

theorem nextCount_lt (p : Params) (n : Nat) : nextCount p n < 2 ^ p.cntW := Nat.mod_lt _ (Nat.two_pow_pos _)

theorem Ran.occupiedInitial {s t : State} {i : Instr} (h : Ran s i t) (hs : OccupiedInitial s.slots) :
    OccupiedInitial t.slots := by
  rcases h.slots with hsame | ⟨ty, v, hupsert, -⟩
  · rwa [hsame]
  · rw [hupsert]
    exact upsert_occupiedInitial ty v s hs

theorem Ran.typesDistinct {s t : State} {i : Instr} (h : Ran s i t) (hs : TypesDistinct s.slots) :
    TypesDistinct t.slots := by
  rcases h.slots with hsame | ⟨ty, v, hupsert, -⟩
  · rwa [hsame]
  · rw [hupsert]
    exact upsert_typesDistinct ty v s hs

theorem Ran.block_inv {s t : State} {i : Instr} (h : Ran s i t) (hs : s.toBlock.Inv s.params) :
    t.toBlock.Inv s.params := by
  obtain ⟨hinitial, hdistinct, hreq, hresp, hfsm, hframe⟩ := hs
  have hc := h.carried
  refine ⟨h.occupiedInitial hinitial, h.typesDistinct hdistinct, ?_, ?_, hc.fsm hfsm, hc.frame hframe⟩
  · rcases hc.reqCount with e | e <;> rw [e]
    exacts [hreq, nextCount_lt _ _]
  · rcases hc.respCount with e | e <;> rw [e]
    exacts [hresp, nextCount_lt _ _]

/-- The transport stays, or it is one that INIT found free. -/
theorem Ran.transport {s t : State} {i : Instr} (h : Ran s i t) :
    t.transport = s.transport ∨ ∃ T, t.transport = some T ∧ s.takenByPeer T = false := by
  cases h with
  | request T f m hp hT h hd => exact .inl h.frameHandled.transport
  | response T r hp hT hr => exact .inl (State.emit_transport s T r)
  | init T hT hp => exact .inr ⟨T, rfl, hp⟩
  | pollIdle T hT h => exact .inl rfl
  | poll T f rest m hT hrx h => exact .inl h.frameHandled.transport
  | setDebug e => exact .inl rfl
  | upsert ty v hi => rw [upsertAnswered_eq]; exact .inl rfl
  | read r hp hi => exact .inl rfl

/-- Being on distinct transports does not depend on the order of the blocks. -/
theorem TransportsDistinct.perm {bs cs : List Block} (h : bs.Perm cs) (hbs : TransportsDistinct bs) :
    TransportsDistinct cs := by
  refine (h.pairwise_iff fun {a b} hab => ?_).1 hbs
  rcases hab with hnone | hne
  · by_cases hb : b.transport = none
    · exact .inl hb
    · exact .inr fun e => hb (e.trans hnone)
  · exact .inr hne.symm

/-- A block without a transport shares none. -/
theorem TransportsDistinct.cons_unbound {b : Block} {bs : List Block} (hb : b.transport = none)
    (hbs : TransportsDistinct bs) : TransportsDistinct (b :: bs) :=
  List.pairwise_cons.2 ⟨fun _ _ => .inl hb, hbs⟩

theorem Ran.transportsDistinct {s t : State} {i : Instr} (h : Ran s i t)
    (hs : TransportsDistinct (s.toBlock :: s.peers)) : TransportsDistinct (t.toBlock :: t.peers) := by
  obtain ⟨hhand, hpeers⟩ := List.pairwise_cons.1 hs
  rw [h.carried.peers]
  refine List.pairwise_cons.2 ⟨fun b hb => ?_, hpeers⟩
  rcases h.transport with hsame | ⟨T, hT, hfree⟩
  · rw [hsame]
    exact hhand b hb
  · rw [hT]
    have hb' : b.transport ≠ some T := by simpa using List.any_eq_false.1 hfree b hb
    exact .inr hb'.symm

theorem Ran.wiresWf {s t : State} {i : Instr} (h : Ran s i t) (hs : wiresWf s.wires = true) :
    wiresWf t.wires = true := by
  rcases h.carried.wires with e | ⟨T, w, -, e⟩ <;> rw [e]
  · exact hs
  · exact wiresWf_wirePut _ _ _ hs

/-- What holds of the machine also inside a transaction: `State.Inv` but for the bytes on their way. -/
structure InvInside (s : State) : Prop where
  blocks : ∀ b ∈ s.toBlock :: s.peers, b.Inv s.params
  transports : TransportsDistinct (s.toBlock :: s.peers)
  wires : wiresWf s.wires = true

theorem State.inv_iff (s : State) : s.Inv ↔ InvInside s ∧ s.arriving = [] := by
  constructor
  · rintro ⟨hhand, hpeers, htransports, hwires, harriving⟩
    exact ⟨⟨List.forall_mem_cons.2 ⟨hhand, hpeers⟩, htransports, hwires⟩, harriving⟩
  · rintro ⟨⟨hblocks, htransports, hwires⟩, harriving⟩
    obtain ⟨hhand, hpeers⟩ := List.forall_mem_cons.1 hblocks
    exact ⟨hhand, hpeers, htransports, hwires, harriving⟩

theorem InvInside.ran {s t : State} {i : Instr} (hs : InvInside s) (h : Ran s i t) : InvInside t where
  blocks := by
    obtain ⟨hhand, hpeers⟩ := List.forall_mem_cons.1 hs.blocks
    rw [h.carried.peers, h.carried.params]
    exact List.forall_mem_cons.2 ⟨h.block_inv hhand, hpeers⟩
  transports := h.transportsDistinct hs.transports
  wires := h.wiresWf hs.wires

theorem InvInside.settle {s : State} (hs : InvInside s) : InvInside s.settle where
  blocks := by simpa using hs.blocks
  transports := by simpa using hs.transports
  wires := State.wiresWf_settle s hs.wires

/-- The marks and the results are no part of the invariant. -/
theorem InvInside.of_marks {s : State} (hs : InvInside s) (faulted refused : Bool) (results : List Result) :
    InvInside { s with faulted := faulted, refused := refused, results := results } := by
  obtain ⟨hblocks, htransports, hwires⟩ := hs
  have hblocks' := List.forall_mem_cons.1 hblocks
  exact ⟨List.forall_mem_cons.2 hblocks', List.pairwise_cons.2 (List.pairwise_cons.1 htransports), hwires⟩

theorem InvInside.conclude_exec {s : State} (hs : InvInside s) (i : Instr) : InvInside (s.conclude (exec i s)) := by
  rcases conclude_exec_cases i s with ⟨t, ht, e⟩ | ⟨r, e⟩ | ⟨r, e⟩ <;> rw [e]
  · exact (hs.ran ht).settle
  · exact (hs.of_marks true s.refused _).settle
  · exact (hs.of_marks s.faulted true _).settle

theorem arriving_conclude_exec (i : Instr) (s : State) : (s.conclude (exec i s)).arriving = [] := by
  rcases conclude_exec_cases i s with ⟨t, -, e⟩ | ⟨r, e⟩ | ⟨r, e⟩ <;> rw [e, State.settle_arriving]

theorem inv_runHost {s t : State} {bytes : List Byte} (hs : InvInside s) (h : runHost bytes s = .next t) : t.Inv := by
  obtain ⟨-, -, i, -, -, rfl⟩ := runHost_next h
  exact (State.inv_iff _).2 ⟨hs.conclude_exec i, arriving_conclude_exec i s⟩

/-- Without a transaction every block is as it was or just constructed, so only the transports are left to look at. -/
theorem inv_of_engineAtRest {s t : State} (hs : s.Inv) (h : EngineAtRest s t)
    (htransports : TransportsDistinct (t.toBlock :: t.peers)) (hwires : wiresWf t.wires = true) : t.Inv := by
  obtain ⟨hinside, harriving⟩ := (State.inv_iff s).1 hs
  refine (State.inv_iff t).2 ⟨⟨fun b hb => ?_, htransports, hwires⟩, h.arriving.trans harriving⟩
  rw [h.params]
  rcases h.blocks b hb with rfl | hb
  · exact inv_reset _
  · exact hinside.blocks b hb

theorem inv_perform {m : Move} {s t : State} (hs : s.Inv) (h : perform m s = .next t) : t.Inv := by
  obtain ⟨⟨hblocks, htransports, hwires⟩, -⟩ := (State.inv_iff s).1 hs
  cases m with
  | host bytes late => exact inv_runHost (s := { s with arriving := late }) ⟨hblocks, htransports, hwires⟩ h
  | receiver T bytes =>
    cases h
    exact inv_of_engineAtRest hs (engineAtRest_rxAppend s T bytes) htransports (wiresWf_wirePut _ _ _ hwires)
  | turn =>
    have hrest := engineAtRest_turnToNext s
    cases h
    refine inv_of_engineAtRest hs hrest (htransports.perm (turnToNext_perm s).symm) ?_
    unfold State.turnToNext
    split <;> exact hwires
  | construct =>
    cases h
    exact inv_of_engineAtRest hs (engineAtRest_constructNew s) (.cons_unbound rfl htransports) hwires
  | restart =>
    cases h
    exact inv_of_engineAtRest hs (engineAtRest_restartBlock s)
      (.cons_unbound rfl (List.pairwise_cons.1 htransports).2) hwires

/-- Settles O42: with nothing to do nothing changes, and every act keeps the invariant. -/
theorem stepKeepsTheInvariants : Obligations.StepKeepsTheInvariants := by
  intro s s' hs h
  cases hagenda : s.agenda with
  | nil =>
    rw [step_nil hagenda] at h
    cases h
    exact hs
  | cons m rest =>
    rw [step_cons hagenda] at h
    exact inv_perform (s := { s with agenda := rest }) hs h

/-! ## The discovered flag (10_state.md R41, 43_dispatch.md R166) -/

theorem length_of_decodeFrame {f : Frame} {i : Instr} (h : decodeFrame f = some i) : f.b0 = LEN4 := by
  by_contra hb
  simp [decodeFrame, hb] at h

theorem port_of_decodeFrame {f : Frame} {i : Instr} (h : decodeFrame f = some i) : i.port = .request := by
  rcases decodeFrame_cases f (length_of_decodeFrame h) with ⟨hd, -⟩ | ⟨hd, -⟩ | ⟨hd, -⟩ | ⟨hd, -⟩ | ⟨hd, -⟩ <;>
    obtain rfl := Option.some.inj (hd.symm.trans h) <;> rfl

/-- A frame that is a request is handled as that request. -/
theorem serveFrame_of_decodeFrame {f : Frame} {i : Instr} (h : decodeFrame f = some i) (T : Nat) (s : State) :
    serveFrame T f s = exec i s := by
  rcases decodeFrame_cases f (length_of_decodeFrame h) with ⟨hd, -⟩ | ⟨hd, -⟩ | ⟨hd, -⟩ | ⟨hd, -⟩ | ⟨hd, -⟩ <;>
    obtain rfl := Option.some.inj (hd.symm.trans h) <;> simp only [serveFrame, hd, exec]

theorem serveFrame_of_decodeFrame_none {f : Frame} (h : decodeFrame f = none) (T : Nat) (s : State) :
    serveFrame T f s = .next (dropBadLength T f s) := by
  simp only [serveFrame, h]

theorem returning_next {r : Result} {o : Host.Outcome State Fault Refusal} {t : State} (h : returning r o = .next t) :
    ∃ u, o = .next u ∧ t = u.answer r := by
  cases o <;> cases h
  exact ⟨_, rfl, rfl⟩

/-- A POLL with a frame to read handles that frame. -/
theorem exec_hostPoll_of_frame {s : State} {T : Nat} {f : Frame} {rest : List Byte} (hT : s.transport = some T)
    (hrx : s.rx T = f.b0 :: f.b1 :: f.b2 :: f.b3 :: rest) :
    exec .hostPoll s = returning .done (serveFrame T f (s.setRx T rest)) := by
  simp only [exec, execHostPoll, hT, State.takeFrame_four s T _ _ _ _ rest hrx]

/-- Nothing but a POLL or a DISCOVER request writes the flag. -/
theorem Ran.discovered_cases {s t : State} {i : Instr} (h : Ran s i t) :
    t.discovered = s.discovered ∨ i = .hostPoll ∨ ∃ addr chk, i = .reqDiscover addr chk := by
  cases h with
  | request T f m hp hT h hd => exact hd.imp_right .inr
  | response T r hp hT hr => exact .inl (State.emit_discovered s T r)
  | init T hT hp => exact .inl rfl
  | pollIdle T hT h => exact .inl rfl
  | poll T f rest m hT hrx h => exact .inr (.inl rfl)
  | setDebug e => exact .inl rfl
  | upsert ty v hi => rw [upsertAnswered_eq]; exact .inl rfl
  | read r hp hi => exact .inl rfl

/-- The frame of a POLL that sets the flag is a DISCOVER request. -/
theorem decodeFrame_of_poll_sets_discovered {s t : State} {T : Nat} {f : Frame} {rest : List Byte}
    (hT : s.transport = some T) (hrx : s.rx T = f.b0 :: f.b1 :: f.b2 :: f.b3 :: rest)
    (h : exec .hostPoll s = .next t) (hclear : s.discovered = false) (hset : t.discovered = true) :
    ∃ addr chk, decodeFrame f = some (.reqDiscover addr chk) := by
  rw [exec_hostPoll_of_frame hT hrx] at h
  obtain ⟨u, hu, rfl⟩ := returning_next h
  cases hd : decodeFrame f with
  | none =>
    rw [serveFrame_of_decodeFrame_none hd] at hu
    cases hu
    simp [dropBadLength, hclear] at hset
  | some i =>
    rw [serveFrame_of_decodeFrame hd] at hu
    rcases (exec_ran hu).discovered_cases with hsame | rfl | ⟨addr, chk, rfl⟩
    · simp [hsame, hclear] at hset
    · exact absurd (port_of_decodeFrame hd) (by decide)
    · exact ⟨addr, chk, rfl⟩

/-- A POLL returns at once, or it has a frame to read. -/
theorem poll_cases {s t : State} (h : Ran s .hostPoll t) :
    t = s.answer .done ∨ ∃ (T : Nat) (f : Frame) (rest : List Byte), s.transport = some T ∧
      s.rx T = f.b0 :: f.b1 :: f.b2 :: f.b3 :: rest := by
  cases h with
  | pollIdle T hT hfew => exact .inl rfl
  | poll T f rest m hT hrx hm => exact .inr ⟨T, f, rest, hT, hrx⟩
  | request T f m hp => cases hp
  | response T r hp => cases hp
  | upsert ty v hi => simp at hi
  | read r hp hi => exact absurd rfl hi

/-- Settles O56: the flag is carried over, and it is set by a DISCOVER request or by the POLL that frames one. -/
theorem discoveredIsPermanent : Obligations.DiscoveredIsPermanent := by
  intro i s s' h
  have hran := exec_ran h
  refine ⟨hran.carried.discovered, fun hclear hset => ?_⟩
  rcases hran.discovered_cases with hsame | rfl | hreq
  · simp [hsame, hclear] at hset
  · rcases poll_cases hran with rfl | ⟨T, f, rest, hT, hrx⟩
    · simp [hclear] at hset
    · obtain ⟨addr, chk, hd⟩ := decodeFrame_of_poll_sets_discovered hT hrx h hclear hset
      exact .inr ⟨rfl, T, f, rest, addr, chk, hT, hrx, hd⟩
  · exact .inl hreq

/-! ## What no instruction reads (10_state.md R42, R51) -/

/-- No instruction but INIT reads what `g` forgets. -/
structure Unread (g : State → State) : Prop where
  forgets : ∀ T, Forgets g T
  reqCount : ∀ s, (g s).reqCount = s.reqCount
  respCount : ∀ s, (g s).respCount = s.respCount
  discovered : ∀ s, (g s).discovered = s.discovered
  transport : ∀ s, (g s).transport = s.transport
  params : ∀ s, (g s).params = s.params
  rx : ∀ T s, (g s).rx T = s.rx T
  answer : ∀ r s, g ((g s).answer r) = g (s.answer r)
  setDebug : ∀ e s, g ((g s).setDebug e) = g (s.setDebug e)
  setRx : ∀ T bs s, g ((g s).setRx T bs) = g (s.setRx T bs)
  setSlots : ∀ x s, g { g s with slots := x } = g { s with slots := x }
  beginFrame : ∀ T f s, g ((g s).beginFrame T f) = g (s.beginFrame T f)
  endFrame : ∀ T s, g ((g s).endFrame T) = g (s.endFrame T)

theorem unread_debug : Unread State.undebugged where
  forgets := forgets_debug
  reqCount _ := rfl
  respCount _ := rfl
  discovered _ := rfl
  transport _ := rfl
  params _ := rfl
  rx _ _ := rfl
  answer _ _ := rfl
  setDebug _ _ := rfl
  setRx _ _ _ := rfl
  setSlots _ _ := rfl
  beginFrame T f s := by apply State.eq_of_fields <;> simp [State.undebugged, State.rx]
  endFrame _ _ := rfl

theorem unread_peers (others : List Block) : Unread fun s => { s with peers := others } where
  forgets T := forgets_peers T others
  reqCount _ := rfl
  respCount _ := rfl
  discovered _ := rfl
  transport _ := rfl
  params _ := rfl
  rx _ _ := rfl
  answer _ _ := rfl
  setDebug _ _ := rfl
  setRx _ _ _ := rfl
  setSlots _ _ := rfl
  beginFrame T f s := by apply State.eq_of_fields <;> simp [State.rx]
  endFrame _ _ := rfl

namespace Unread

variable {g : State → State}

theorem endFrame_congr (H : Unread g) (T : Nat) {s u : State} (h : g s = g u) :
    g (s.endFrame T) = g (u.endFrame T) := by
  rw [← H.endFrame, h, H.endFrame]

theorem answer_congr (H : Unread g) (r : Result) {s u : State} (h : g s = g u) : g (s.answer r) = g (u.answer r) := by
  rw [← H.answer, h, H.answer]

theorem returning_congr (H : Unread g) (r : Result) {o o' : Host.Outcome State Fault Refusal}
    (h : seenThrough g o = seenThrough g o') : seenThrough g (returning r o) = seenThrough g (returning r o') := by
  cases o <;> cases o' <;> simp only [seenThrough, returning, reduceCtorEq, Host.Outcome.next.injEq] at h ⊢
  case next.next => exact H.answer_congr r h
  all_goals exact h

theorem upsert_congr (H : Unread g) (t : Byte) (v : Half) (s : State) :
    (upsert t v (g s)).2 = (upsert t v s).2 ∧ g (upsert t v (g s)).1 = g (upsert t v s).1 := by
  unfold upsert
  rw [(H.forgets 0).slots]
  cases findByType s.slots t with
  | some i => exact ⟨rfl, H.setSlots _ s⟩
  | none =>
    cases firstFree s.slots with
    | some j => exact ⟨rfl, H.setSlots _ s⟩
    | none => exact ⟨rfl, (H.forgets 0).offer _ s⟩

theorem upsertAnswered_congr (H : Unread g) (t : Byte) (v : Half) (s : State) :
    g (upsertAnswered t v (g s)) = g (upsertAnswered t v s) := by
  obtain ⟨happlied, hstate⟩ := H.upsert_congr t v s
  simp only [upsertAnswered, happlied]
  exact H.answer_congr _ hstate

theorem emitBound_congr (H : Unread g) (r : List Byte) (s : State) :
    seenThrough g (emitBound r (g s)) = seenThrough g (emitBound r s) := by
  unfold emitBound
  rw [H.transport]
  cases s.transport with
  | none => rfl
  | some T => exact congrArg Host.Outcome.next ((H.forgets T).emit r s)

theorem serveRequest_congr (H : Unread g) {f : Frame} {command : Nat → State → State}
    (hcommand : ∀ T s, g (ifChecksumOk f (dispatch f (command T)) (g s)) = g (ifChecksumOk f (dispatch f (command T)) s))
    (s : State) : seenThrough g (serveRequest f command (g s)) = seenThrough g (serveRequest f command s) := by
  unfold serveRequest
  rw [H.transport]
  cases s.transport with
  | none => rfl
  | some T =>
    refine congrArg Host.Outcome.next (H.endFrame_congr T ?_)
    rw [← hcommand, H.beginFrame, hcommand]

theorem execHostPoll_congr (H : Unread g) (s : State) :
    seenThrough g (execHostPoll (g s)) = seenThrough g (execHostPoll s) := by
  unfold execHostPoll
  rw [H.transport]
  cases hT : s.transport with
  | none => rfl
  | some T =>
    simp only [State.takeFrame_eq, H.rx]
    rcases s.rx T with _ | ⟨b0, _ | ⟨b1, _ | ⟨b2, _ | ⟨b3, rest⟩⟩⟩⟩
    case cons.cons.cons.cons =>
      refine H.returning_congr _ (serveFrame_congr ((H.transport s).trans hT) hT (H.forgets T)
        (fun _ _ => H.endFrame_congr T) ?_)
      rw [← H.beginFrame, H.setRx, H.beginFrame]
    all_goals exact congrArg Host.Outcome.next (H.answer .done s)

theorem execHostSetKind_congr (H : Unread g) (k : Kind) (x : Reading) (s : State) :
    seenThrough g (execHostSetKind k x (g s)) = seenThrough g (execHostSetKind k x s) := by
  unfold execHostSetKind
  rw [H.params]
  cases converted s.params k x with
  | store v => exact congrArg Host.Outcome.next (H.upsertAnswered_congr _ v s)
  | fault => rfl

/-- An operation that returns a result computed from what `g` leaves alone. -/
theorem answer_seen (H : Unread g) {r r' : Result} (hr : r = r') (s : State) :
    seenThrough g (.next ((g s).answer r)) = seenThrough g (.next (s.answer r')) := by
  rw [hr]
  exact congrArg Host.Outcome.next (H.answer r' s)

/-- Seen through `g`, the outcome of an instruction other than INIT does not depend on what `g` forgets. -/
theorem exec_congr (H : Unread g) {i : Instr} (hi : ∀ T, i ≠ .hostInit T) (s : State) :
    seenThrough g (exec i (g s)) = seenThrough g (exec i s) := by
  have hslots := (H.forgets 0).slots s
  cases i with
  | reqDiscover addr chk => exact H.serveRequest_congr (fun T s => ((H.forgets T).commands _ s).1) s
  | reqType addr chk => exact H.serveRequest_congr (fun T s => ((H.forgets T).commands _ s).2.1) s
  | reqMeasurement addr chk => exact H.serveRequest_congr (fun T s => ((H.forgets T).commands _ s).2.2.1) s
  | reqUnhandledLow cmd addr chk => exact H.serveRequest_congr (fun T s => ((H.forgets T).commands _ s).2.2.2) s
  | reqUnhandledHigh cmd addr chk => exact H.serveRequest_congr (fun T s => ((H.forgets T).commands _ s).2.2.2) s
  | rspDiscover addr chk => exact H.emitBound_congr _ s
  | rspType addr t chk => exact H.emitBound_congr _ s
  | rspMeasurement addr v chk => exact H.emitBound_congr _ s
  | hostInit T => exact absurd rfl (hi T)
  | hostPoll => exact H.execHostPoll_congr s
  | hostUpsert t v => exact congrArg Host.Outcome.next (H.upsertAnswered_congr t v s)
  | hostSetKind k x => exact H.execHostSetKind_congr k x s
  | hostGetReqCount => exact H.answer_seen (by rw [H.reqCount]) s
  | hostGetRespCount => exact H.answer_seen (by rw [H.respCount]) s
  | hostGetDiscovered => exact H.answer_seen (by rw [H.discovered]) s
  | hostSetDebug e => exact congrArg Host.Outcome.next (H.answer_congr .done (H.setDebug e s))
  | hostGetOccupied => exact H.answer_seen (by rw [hslots]) s
  | hostUnassigned op => rfl
  | tblUpsert t v => exact congrArg Host.Outcome.next (H.upsertAnswered_congr t v s)
  | tblFindByType t => exact H.answer_seen (by rw [hslots]) s
  | tblAt a => exact H.answer_seen (by rw [hslots]) s
  | tblOccupiedCount => exact H.answer_seen (by rw [hslots]) s

end Unread

/-- INIT reads the other blocks, and neither the toggle nor the log. -/
theorem exec_hostInit_undebugged (T : Nat) (s : State) :
    seenThrough State.undebugged (exec (.hostInit T) s.undebugged) =
      seenThrough State.undebugged (exec (.hostInit T) s) := by
  have hbound : s.undebugged.bound = s.bound := rfl
  have htaken : s.undebugged.takenByPeer T = s.takenByPeer T := rfl
  simp only [exec, execHostInit, hbound, htaken]
  cases s.bound with
  | true => rfl
  | false =>
    cases s.takenByPeer T with
    | true => rfl
    | false => rfl

theorem Ran.debugEn {s t : State} {i : Instr} (h : Ran s i t) :
    t.debugEn = s.debugEn ∨ ∃ e, i = .hostSetDebug e := by
  cases h with
  | request T f m hp hT h hd => exact .inl h.frameHandled.debugEn
  | response T r hp hT hr => exact .inl (State.emit_debugEn s T r)
  | init T hT hp => exact .inl rfl
  | pollIdle T hT h => exact .inl rfl
  | poll T f rest m hT hrx h => exact .inl h.frameHandled.debugEn
  | setDebug e => exact .inr ⟨e, rfl⟩
  | upsert ty v hi => rw [upsertAnswered_eq]; exact .inl rfl
  | read r hp hi => exact .inl rfl

/-- Settles O52: the toggle and the log are read by no instruction, and one instruction writes the toggle. -/
theorem debugToggleNeverAffectsProtocol : Obligations.DebugToggleNeverAffectsProtocol := by
  intro i s
  refine ⟨?_, fun s' h hne => (exec_ran h).debugEn.resolve_left hne⟩
  by_cases hi : ∃ T, i = .hostInit T
  · obtain ⟨T, rfl⟩ := hi
    exact (exec_hostInit_undebugged T s).symm
  · exact (unread_debug.exec_congr (not_exists.1 hi) s).symm

/-! ## What stands beside the block in hand (10_state.md R51, 60_exceptions.md R243) -/

/-- A transport that the block is not bound to is as it was. -/
theorem Carried.other_wires {s t : State} (h : Carried s t) {T : Nat} (hT : s.transport ≠ some T) :
    t.rx T = s.rx T ∧ t.tx T = s.tx T := by
  rcases h.wires with e | ⟨T', w, hT', e⟩
  · exact ⟨State.rx_congr e T, State.tx_congr e T⟩
  · have hne : T ≠ T' := by
      rintro rfl
      exact hT hT'
    simp only [State.rx, State.tx, e, wireGet_wirePut_other _ _ _ w hne, and_self]

theorem seenThrough_eq_self {g : State → State} {o : Host.Outcome State Fault Refusal}
    (h : ∀ t, o = .next t → g t = t) : seenThrough g o = o := by
  cases o with
  | next t => exact congrArg Host.Outcome.next (h t rfl)
  | fault r => rfl
  | refused r => rfl

/-- Settles O53: what stands beside the block is carried over, and no instruction but INIT reads the other blocks. -/
theorem transactionsTouchOnlyTheirInstance : Obligations.TransactionsTouchOnlyTheirInstance := by
  intro i s
  constructor
  · intro s' h
    have hc := (exec_ran h).carried
    exact ⟨hc.peers, hc.params, hc.agenda, fun T hT => hc.other_wires hT⟩
  · intro hi others
    rw [← (unread_peers others).exec_congr hi s]
    refine (seenThrough_eq_self fun t ht => ?_).symm
    have hpeers : t.peers = others := (exec_ran ht).carried.peers
    rw [← hpeers]

end Sys2Proof.Machine
end

section
/-! PROOFS. 20_memory.md: what an upsert stores is what a request to its address reads back (R70). -/

namespace Sys2Proof.Machine

open Sys2Proof

/-! ## An upsert that is applied (40_sensor_table.md R110) -/

/-- An upsert of a type that is bound, or of any type with a free slot left, stores the type and the value in a slot. -/
theorem upsert_stores {s : State} {t : Byte}
    (h : (∃ (k : Fin CAP) (slot : Slot), s.slots[k] = some slot ∧ slot.type = t) ∨ ∃ k : Fin CAP, s.slots[k] = none)
    (v : Half) : ∃ k : Fin CAP, (upsert t v s).1.slots[k] = some { type := t, value := v } := by
  rcases upsert_cases t v s with ⟨i, -, -, -, e⟩ | ⟨j, -, -, e⟩ | ⟨hnew, hfull, -⟩
  · exact ⟨i, by rw [e]; exact table_set_same _ _ _⟩
  · exact ⟨j, by rw [e]; exact table_set_same _ _ _⟩
  · rcases h with ⟨k, slot, hk, ht⟩ | ⟨k, hk⟩
    · exact absurd ht ((findByType_eq_none _ _).1 hnew k slot hk)
    · have hocc := (firstFree_eq_none _).1 hfull k
      simp [occupied, hk] at hocc

/-- Every slot has an address (10_state.md R31). -/
theorem exists_addr_of_slot (k : Fin CAP) : ∃ addr : Nibble, addr.toNat = k.val + 1 := by
  revert k
  decide

/-! ## A valid request to an occupied slot (43_dispatch.md R160 to R162) -/

/-- A valid request for which a command answers from an occupied slot: the frame begins, the request is counted, the
command answers, the frame ends. -/
theorem serveRequest_occupied {s : State} {T : Nat} {addr : Nibble} {k : Fin CAP} {slot : Slot}
    (hT : s.transport = some T) (ha : addr.toNat = k.val + 1) (hs : s.slots[k] = some slot) (cmd : Nibble)
    (respond : Nat → Slot → State → State) :
    let f := requestFrame cmd addr (chk2 LEN4 (cmdAddr cmd addr))
    serveRequest f (fun T => withSlot f (respond T)) s =
      .next ((respond T slot (s.beginFrame T f).countRequest).endFrame T) := by
  intro f
  have hchk : chkOk f = true := (chkOk_iff f).2 (rxChk_requestFrame _ _ _).symm
  have haddr : addrOf f.b1 = addr := addrOf_requestFrame _ _ _
  have hhandled : addrHandled (addrOf f.b1) = true := by
    have hk : k.val < 4 := k.isLt
    rw [haddr, addrHandled_iff]
    omega
  have hslot : withSlot f (respond T) (s.beginFrame T f).countRequest =
      respond T slot (s.beginFrame T f).countRequest :=
    withSlot_occupied f _ _ k slot (by rw [haddr, ha]) (by simpa using hs)
  rw [serveRequest_bound hT]
  simp only [ifChecksumOk, hchk, if_true, dispatch, hhandled, hslot]

/-- A valid TYPE request to an occupied slot is answered with the slot's type (43_dispatch.md R169). -/
theorem exec_reqType_occupied {s : State} {T : Nat} {addr : Nibble} {k : Fin CAP} {slot : Slot}
    (hT : s.transport = some T) (ha : addr.toNat = k.val + 1) (hs : s.slots[k] = some slot) :
    let chk := chk2 LEN4 (cmdAddr CMD_TYPE addr)
    exec (.reqType addr chk) s =
      .next (((s.beginFrame T (requestFrame CMD_TYPE addr chk)).countRequest.emit T
        (typeResponse addr slot.type)).endFrame T) := by
  have h := serveRequest_occupied hT ha hs CMD_TYPE fun T slot s => s.emit T (typeResponse addr slot.type)
  simpa only [exec, execReqType, doType, addrOf_requestFrame] using h

/-- A valid MEASUREMENT request to an occupied slot is answered with the slot's value (43_dispatch.md R172). -/
theorem exec_reqMeasurement_occupied {s : State} {T : Nat} {addr : Nibble} {k : Fin CAP} {slot : Slot}
    (hT : s.transport = some T) (ha : addr.toNat = k.val + 1) (hs : s.slots[k] = some slot) :
    let chk := chk2 LEN4 (cmdAddr CMD_MEAS addr)
    exec (.reqMeasurement addr chk) s =
      .next (((s.beginFrame T (requestFrame CMD_MEAS addr chk)).countRequest.emit T
        (measurementResponse addr slot.value)).endFrame T) := by
  have h := serveRequest_occupied hT ha hs CMD_MEAS fun T slot s => s.emit T (measurementResponse addr slot.value)
  simpa only [exec, execReqMeasurement, doMeasurement, addrOf_requestFrame] using h

/-! ## The value read back (20_memory.md R70) -/

/-- Settles O55: the upsert stores in some slot, and neither it nor the TYPE request moves what the next request reads. -/
theorem upsertedValueIsWhatIsAnswered : Obligations.UpsertedValueIsWhatIsAnswered := by
  intro s T t v hT hroom
  obtain ⟨k, hk⟩ := upsert_stores hroom v
  obtain ⟨addr, ha⟩ := exists_addr_of_slot k
  have hup := upsertAnswered_eq t v s
  have hT1 : (upsertAnswered t v s).transport = some T := by rw [hup]; exact hT
  have hk1 : (upsertAnswered t v s).slots[k] = some { type := t, value := v } := hk
  have htx1 : (upsertAnswered t v s).tx T = s.tx T := State.tx_congr (by rw [hup]) T
  refine ⟨_, _, _, addr, exec_hostUpsert t v s, exec_reqType_occupied hT1 ha hk1, ?_,
    exec_reqMeasurement_occupied (by simpa using hT1) ha (by simpa using hk1), ?_⟩
  · simp [htx1]
  · simp

end Sys2Proof.Machine
end

section
/-! PROOFS. 30_encoding.md: the words of every port read back and written out again (R80 to R89, R94 to R96, R98), the
responses to valid requests (R84 to R86), and the host transaction a step runs (R94). -/

namespace Sys2Proof.Machine

open Sys2Proof

/-! ## Requests (30_encoding.md R80 to R83, R89) -/

/-- A command nibble outside 0x8 to 0xA is none of the three commands. -/
theorem ne_commands_of_toNat {c : Nibble} :
    c.toNat < 0x8 ∨ 0xA < c.toNat → c ≠ CMD_DISCOVER ∧ c ≠ CMD_TYPE ∧ c ≠ CMD_MEAS := by
  revert c
  decide

/-- A frame is read as a request exactly when its length byte is 0x04, and as the one its command nibble picks. -/
theorem decodeFrame_eq_some {f : Frame} {i : Instr} :
    decodeFrame f = some i ↔ f.b0 = LEN4 ∧ IsRequest i (cmdOf f.b1) (addrOf f.b1) (rxChk f) := by
  constructor
  · intro h
    have hb := length_of_decodeFrame h
    refine ⟨hb, ?_⟩
    rcases decodeFrame_cases f hb with ⟨hd, hc⟩ | ⟨hd, hc⟩ | ⟨hd, hc⟩ | ⟨hd, hc⟩ | ⟨hd, hc⟩ <;>
      obtain rfl := Option.some.inj (hd.symm.trans h)
    · exact .inl ⟨rfl, hc⟩
    · exact .inr (.inl ⟨rfl, hc⟩)
    · exact .inr (.inr (.inl ⟨rfl, hc⟩))
    · exact .inr (.inr (.inr (.inl ⟨rfl, hc⟩)))
    · exact .inr (.inr (.inr (.inr ⟨rfl, hc⟩)))
  · rintro ⟨hb, ⟨rfl, hc⟩ | ⟨rfl, hc⟩ | ⟨rfl, hc⟩ | ⟨rfl, hc⟩ | ⟨rfl, hc⟩⟩
    · simp [decodeFrame, hb, hc, CMD_DISCOVER]
    · simp [decodeFrame, hb, hc, CMD_DISCOVER, CMD_TYPE]
    · simp [decodeFrame, hb, hc, CMD_DISCOVER, CMD_TYPE, CMD_MEAS]
    · obtain ⟨h8, h9, hA⟩ := ne_commands_of_toNat (.inl hc)
      simp [decodeFrame, hb, h8, h9, hA, hc]
    · obtain ⟨h8, h9, hA⟩ := ne_commands_of_toNat (.inr hc)
      have hlow : ¬(cmdOf f.b1).toNat < 0x8 := by omega
      simp [decodeFrame, hb, h8, h9, hA, hlow]

theorem decodeFrame_requestFrame {i : Instr} {cmd addr : Nibble} {chk : Half} (h : IsRequest i cmd addr chk) :
    decodeFrame (requestFrame cmd addr chk) = some i :=
  decodeFrame_eq_some.2 ⟨rfl, by simpa using h⟩

/-- A request's fields name one request. -/
theorem IsRequest.unique {i j : Instr} {cmd addr : Nibble} {chk : Half} (hi : IsRequest i cmd addr chk)
    (hj : IsRequest j cmd addr chk) : i = j :=
  Option.some.inj ((decodeFrame_requestFrame hi).symm.trans (decodeFrame_requestFrame hj))

/-- A request is well formed, stands at the request port, and is written as the frame of its fields. -/
theorem IsRequest.encode {i : Instr} {cmd addr : Nibble} {chk : Half} (h : IsRequest i cmd addr chk) :
    i.port = .request ∧ encode i = frameBytes (requestFrame cmd addr chk) ∧ i.wf = true := by
  rcases h with ⟨rfl, rfl⟩ | ⟨rfl, rfl⟩ | ⟨rfl, rfl⟩ | ⟨rfl, hc⟩ | ⟨rfl, hc⟩
  · exact ⟨rfl, rfl, rfl⟩
  · exact ⟨rfl, rfl, rfl⟩
  · exact ⟨rfl, rfl, rfl⟩
  · exact ⟨rfl, rfl, decide_eq_true hc⟩
  · exact ⟨rfl, rfl, decide_eq_true hc⟩

/-- A well-formed word of the request port is a request. -/
theorem isRequest_of_wf {i : Instr} (hp : i.port = .request) (hwf : i.wf = true) :
    ∃ cmd addr chk, IsRequest i cmd addr chk := by
  cases i <;> simp only [Instr.port, reduceCtorEq] at hp
  case reqDiscover addr chk => exact ⟨0x8, addr, chk, .inl ⟨rfl, rfl⟩⟩
  case reqType addr chk => exact ⟨0x9, addr, chk, .inr (.inl ⟨rfl, rfl⟩)⟩
  case reqMeasurement addr chk => exact ⟨0xA, addr, chk, .inr (.inr (.inl ⟨rfl, rfl⟩))⟩
  case reqUnhandledLow cmd addr chk =>
    exact ⟨cmd, addr, chk, .inr (.inr (.inr (.inl ⟨rfl, of_decide_eq_true hwf⟩)))⟩
  case reqUnhandledHigh cmd addr chk =>
    exact ⟨cmd, addr, chk, .inr (.inr (.inr (.inr ⟨rfl, of_decide_eq_true hwf⟩)))⟩

theorem decodeRequest_frameBytes {f : Frame} {i : Instr} (h : decodeFrame f = some i) (rest : List Byte) :
    decodeRequest (frameBytes f ++ rest) = .ok i rest := by
  simp only [frameBytes, List.cons_append, List.nil_append, decodeRequest, h]

/-- What is read at the request port is the four bytes of a frame that is a request. -/
theorem decodeRequest_ok {bytes rest : List Byte} {i : Instr} (h : decodeRequest bytes = .ok i rest) :
    ∃ f, bytes = frameBytes f ++ rest ∧ decodeFrame f = some i := by
  unfold decodeRequest at h
  split at h
  next b0 b1 b2 b3 after =>
    split at h
    next j hd =>
      cases h
      exact ⟨⟨b0, b1, b2, b3⟩, rfl, hd⟩
    next => cases h
  next => cases h

/-! ## Responses (30_encoding.md R84 to R86) -/

/-- A response is read back, whatever its address, its checksum and the bytes that follow. -/
theorem decodeResponse_encode {i : Instr} (hp : i.port = .response) (rest : List Byte) :
    decodeResponse (encode i ++ rest) = .ok i rest := by
  have h46 : LEN6 ≠ LEN4 := by decide
  have h9A : CMD_MEAS ≠ CMD_TYPE := by decide
  cases i <;> simp only [Instr.port, reduceCtorEq] at hp
  case rspDiscover addr chk => simp [encode, decodeResponse]
  case rspType addr t chk => simp [encode, decodeResponse, h46]
  case rspMeasurement addr v chk => simp [encode, decodeResponse, h46, h9A]

/-- What is read at the response port is a response's encoding. -/
theorem decodeResponse_ok {bytes rest : List Byte} {i : Instr} (h : decodeResponse bytes = .ok i rest) :
    i.port = .response ∧ bytes = encode i ++ rest := by
  have byte1 {b : Byte} {cmd : Nibble} (hc : cmdOf b = cmd) : b = cmdAddr cmd (addrOf b) := by
    rw [← hc, cmdAddr_cmdOf_addrOf]
  unfold decodeResponse at h
  split at h
  next b0 b1 b2 b3 after =>
    split at h
    next hb =>
      cases h
      exact ⟨rfl, by simp [encode, hb.1, ← byte1 hb.2]⟩
    next =>
      split at h
      next hlen =>
        split at h
        next b4 b5 after =>
          split at h
          next hb =>
            cases h
            exact ⟨rfl, by simp [encode, hlen, hb.2, ← byte1 hb.1]⟩
          next =>
            split at h
            next hb =>
              cases h
              exact ⟨rfl, by simp [encode, hlen, ← byte1 hb]⟩
            next => cases h
        next => cases h
      next => cases h
  next => cases h

/-! ## Host transactions and table operations (30_encoding.md R94 to R96) -/

theorem decodeHostOp_unassigned {op : Nibble} (h : 0x9 ≤ op.toNat) (bs : List Byte) :
    decodeHostOp op bs = .ok (.hostUnassigned op) bs := by
  unfold decodeHostOp
  split
  case h_10 => rfl
  all_goals omega

/-- A selector byte is its selector under four zero bits. -/
theorem decodeHost_cmdAddr (op : Nibble) (bs : List Byte) : decodeHost (cmdAddr 0 op :: bs) = decodeHostOp op bs := by
  simp [decodeHost]

/-- A well-formed host transaction is read back, whatever bytes follow. -/
theorem decodeHost_encode {i : Instr} (hp : i.port = .host) (hwf : i.wf = true) (rest : List Byte) :
    decodeHost (encode i ++ rest) = .ok i rest := by
  cases i <;> simp only [Instr.port, reduceCtorEq] at hp
  case hostInit T =>
    refine (decodeHost_cmdAddr 0x0 _).trans ?_
    simp [decodeHostOp]
  case hostPoll => rfl
  case hostUpsert t v => exact decodeUpsert_encodeUpsert _ t v rest
  case hostSetKind k x =>
    refine (decodeHost_cmdAddr 0x3 _).trans ?_
    simp [decodeHostOp]
  case hostGetReqCount => rfl
  case hostGetRespCount => rfl
  case hostGetDiscovered => rfl
  case hostSetDebug e => cases e <;> rfl
  case hostGetOccupied => rfl
  case hostUnassigned op =>
    exact (decodeHost_cmdAddr op rest).trans (decodeHostOp_unassigned (of_decide_eq_true hwf) rest)

/-- A table operation is read back, whatever bytes follow. -/
theorem decodeTable_encode {i : Instr} (hp : i.port = .table) (rest : List Byte) :
    decodeTable (encode i ++ rest) = .ok i rest := by
  cases i <;> simp only [Instr.port, reduceCtorEq] at hp
  case tblUpsert t v => exact decodeUpsert_encodeUpsert _ t v rest
  case tblFindByType t => rfl
  case tblAt a => simp [encode, decodeTable]
  case tblOccupiedCount => rfl

theorem decodeUpsert_ok {mk : Byte → Half → Instr} {bytes rest : List Byte} {i : Instr}
    (h : decodeUpsert mk bytes = .ok i rest) : ∃ t v, i = mk t v ∧ bytes = encodeUpsert t v ++ rest := by
  unfold decodeUpsert at h
  split at h
  next t v0 v1 after =>
    cases h
    exact ⟨t, le16 v0 v1, rfl, by simp [encodeUpsert]⟩
  next => cases h

/-- What is read at the table port is a table operation's encoding. -/
theorem decodeTable_ok {bytes rest : List Byte} {i : Instr} (h : decodeTable bytes = .ok i rest) :
    i.port = .table ∧ bytes = encode i ++ rest := by
  unfold decodeTable at h
  split at h
  next b bs =>
    have selector {n : Byte} (hb : b.toNat = n.toNat) : b = n := BitVec.eq_of_toNat_eq hb
    split at h
    next hb =>
      obtain ⟨t, v, rfl, rfl⟩ := decodeUpsert_ok h
      obtain rfl := selector (n := 0) hb
      exact ⟨rfl, rfl⟩
    next hb =>
      obtain rfl := selector (n := 1) hb
      split at h <;> cases h
      exact ⟨rfl, rfl⟩
    next hb =>
      obtain rfl := selector (n := 2) hb
      split at h
      next a after =>
        split at h
        next ha =>
          cases h
          exact ⟨rfl, by simp [encode, ← ha]⟩
        next => cases h
      next => cases h
    next hb =>
      obtain rfl := selector (n := 3) hb
      cases h
      exact ⟨rfl, rfl⟩
    next => cases h
  next => cases h

/-! ## Decoding against encoding -/

/-- Settles O3: port by port, by the words each port reads. -/
theorem decodeReadsBackEncode : Obligations.DecodeReadsBackEncode := by
  intro i hwf rest
  cases hp : i.port with
  | request =>
    obtain ⟨cmd, addr, chk, hi⟩ := isRequest_of_wf hp hwf
    rw [hi.encode.2.1]
    exact decodeRequest_frameBytes (decodeFrame_requestFrame hi) rest
  | response => exact decodeResponse_encode hp rest
  | host => exact decodeHost_encode hp hwf rest
  | table => exact decodeTable_encode hp rest

/-- Settles O4: port by port, what is read fixes the bytes it was read from. -/
theorem wireWordsHaveOneMeaning : Obligations.WireWordsHaveOneMeaning := by
  intro p bytes rest i hp h
  cases p with
  | host => exact absurd rfl hp
  | request =>
    obtain ⟨f, rfl, hd⟩ := decodeRequest_ok h
    obtain ⟨hb, hi⟩ := decodeFrame_eq_some.1 hd
    obtain ⟨hport, hencode, hwf⟩ := hi.encode
    exact ⟨hport, by rw [hencode, ← frame_eq_requestFrame f hb], fun _ => hwf⟩
  | response =>
    obtain ⟨hport, hbytes⟩ := decodeResponse_ok h
    exact ⟨hport, hbytes, fun hne => nomatch hne⟩
  | table =>
    obtain ⟨hport, hbytes⟩ := decodeTable_ok h
    exact ⟨hport, hbytes, fun hne => nomatch hne⟩

/-- Settles O5: a frame with length byte 0x04 is the request of its fields, and no other frame is one. -/
theorem framesDecodeByCommandNibble : Obligations.FramesDecodeByCommandNibble := by
  intro cmd addr b0 c0 c1
  refine ⟨fun hb => if_neg hb, ?_⟩
  rintro rfl f rfl
  have reads {i : Instr} (hi : IsRequest i cmd addr (c1 ++ c0)) :
      decodeFrame { b0 := 0x04, b1 := cmd ++ addr, b2 := c0, b3 := c1 } = some i := by
    refine decodeFrame_eq_some.2 ⟨rfl, ?_⟩
    have hcmd : cmdOf (cmd ++ addr) = cmd := cmdOf_cmdAddr cmd addr
    have haddr : addrOf (cmd ++ addr) = addr := addrOf_cmdAddr cmd addr
    rw [hcmd, haddr]
    exact hi
  exact ⟨fun h => reads (.inl ⟨rfl, h⟩), fun h => reads (.inr (.inl ⟨rfl, h⟩)),
    fun h => reads (.inr (.inr (.inl ⟨rfl, h⟩))), fun h => reads (.inr (.inr (.inr (.inl ⟨rfl, h⟩)))),
    fun h => reads (.inr (.inr (.inr (.inr ⟨rfl, h⟩))))⟩

/-- Settles O1: each side of the four rows is evaluated. -/
theorem workedRequestsEncodeAndDecode : Obligations.WorkedRequestsEncodeAndDecode := by
  unfold Obligations.WorkedRequestsEncodeAndDecode
  decide

/-- Settles O2: each word is evaluated. -/
theorem writtenOutWordsDecode : Obligations.WrittenOutWordsDecode := by
  unfold Obligations.WrittenOutWordsDecode
  decide

/-- Settles O39: the selector byte picks the last row, and that row's one meaning is the refusal. -/
theorem unassignedOpIsRefused : Obligations.UnassignedOpIsRefused := fun _ op hop =>
  ⟨(decodeHost_cmdAddr op []).trans (decodeHostOp_unassigned hop []), rfl⟩

/-! ## Response words (30_encoding.md R84 to R86, 43_dispatch.md R164) -/

/-- The checksum of a well-formed DISCOVER response is the one the block constructs. -/
theorem encode_rspDiscover {addr : Nibble} {chk : Half} (h : Instr.wf (.rspDiscover addr chk) = true) :
    encode (.rspDiscover addr chk) = discoverResponse (cmdAddr CMD_DISCOVER addr) := by
  simp only [Instr.wf, Bool.and_eq_true, beq_iff_eq] at h
  rw [h.2]
  rfl

/-- The checksum of a well-formed TYPE response is the one the block constructs. -/
theorem encode_rspType {addr : Nibble} {t : Byte} {chk : Half} (h : Instr.wf (.rspType addr t chk) = true) :
    encode (.rspType addr t chk) = typeResponse addr t := by
  simp only [Instr.wf, Bool.and_eq_true, beq_iff_eq] at h
  rw [h.2]
  rfl

/-- The checksum of a well-formed MEASUREMENT response is the one the block constructs. -/
theorem encode_rspMeasurement {addr : Nibble} {v chk : Half} (h : Instr.wf (.rspMeasurement addr v chk) = true) :
    encode (.rspMeasurement addr v chk) = measurementResponse addr v := by
  simp only [Instr.wf, Bool.and_eq_true, beq_iff_eq] at h
  rw [h.2]
  rfl

/-- A well-formed response word is an EMIT of its own bytes. -/
theorem exec_response {s : State} {T : Nat} {i : Instr} (hT : s.transport = some T) (hp : i.port = .response)
    (hwf : i.wf = true) : exec i s = .next (s.emit T (encode i)) := by
  have emitted (r : List Byte) : emitBound r s = .next (s.emit T r) := by simp only [emitBound, hT]
  cases i <;> simp only [Instr.port, reduceCtorEq] at hp
  case rspDiscover addr chk => rw [encode_rspDiscover hwf]; exact emitted _
  case rspType addr t chk => rw [encode_rspType hwf]; exact emitted _
  case rspMeasurement addr v chk => rw [encode_rspMeasurement hwf]; exact emitted _

/-- An EMIT writes one transport, the response counter and the log, and nothing else. -/
theorem emit_eq (s : State) (T : Nat) (r : List Byte) :
    s.emit T r = { s with
      respCount := nextCount s.params s.respCount, diag := s.diagAfter [.responseSent r],
      wires := (s.emit T r).wires } := by
  apply State.eq_of_fields <;> simp [State.diagAfter]

/-- Settles O24: a response word is an EMIT of its encoding. -/
theorem responseWordsAreEmitted : Obligations.ResponseWordsAreEmitted := fun s T _ hT hp hwf =>
  ⟨_, exec_response hT hp hwf, State.tx_emit s T _, State.rx_emit s T T _,
    fun T' hT' => ⟨State.rx_emit s T T' _, State.tx_emit_other s T T' _ hT'⟩, emit_eq s T _⟩

/-! ## Requests that are answered (30_encoding.md R84 to R86, 43_dispatch.md R165 to R173) -/

/-- A valid DISCOVER request to an occupied slot is answered with its echo (43_dispatch.md R165, R166). -/
theorem exec_reqDiscover_occupied {s : State} {T : Nat} {addr : Nibble} {k : Fin CAP} {slot : Slot}
    (hT : s.transport = some T) (ha : addr.toNat = k.val + 1) (hs : s.slots[k] = some slot) :
    let chk := chk2 LEN4 (cmdAddr CMD_DISCOVER addr)
    exec (.reqDiscover addr chk) s =
      .next (((s.beginFrame T (requestFrame CMD_DISCOVER addr chk)).countRequest.emit T
        (discoverResponse (cmdAddr CMD_DISCOVER addr))).setDiscovered.endFrame T) :=
  serveRequest_occupied hT ha hs CMD_DISCOVER fun T _ s =>
    (s.emit T (discoverResponse (cmdAddr CMD_DISCOVER addr))).setDiscovered

/-- What a request that gets the response `r` leaves, with the discovered flag `d`. -/
def LeftAnswered (s s' : State) (T : Nat) (f : Frame) (r : List Byte) (d : Bool) : Prop :=
  s'.tx T = s.tx T ++ r ∧ s'.rx T = [] ∧ OtherWiresSame s s' T ∧
    s' = { s with
      reqCount := nextCount s.params s.reqCount, respCount := nextCount s.params s.respCount, discovered := d,
      diag := s.diagAfter [.frameSeen f, .responseSent r], fsm := .idle, frame := none, arriving := [],
      wires := s'.wires }

theorem leftAnswered (s : State) (T : Nat) (f : Frame) (r : List Byte) :
    LeftAnswered s (((s.beginFrame T f).countRequest.emit T r).endFrame T) T f r s.discovered := by
  refine ⟨by simp, by simp, fun T' hT' => ⟨?_, ?_⟩, ?_⟩
  · simp [State.rx_endFrame_other _ _ _ hT', State.rx_beginFrame_other _ _ _ _ hT']
  · simp [State.tx_emit_other _ _ _ _ hT']
  · apply State.eq_of_fields
    case h10 => by_cases hd : s.debugEn <;> simp [State.diagAfter, hd]
    all_goals simp

/-- Setting the flag before the frame ends changes the flag alone. -/
theorem leftAnswered_setDiscovered (s : State) (T : Nat) (f : Frame) (r : List Byte) :
    LeftAnswered s (((s.beginFrame T f).countRequest.emit T r).setDiscovered.endFrame T) T f r true := by
  obtain ⟨htx, hrx, hother, heq⟩ := leftAnswered s T f r
  exact ⟨htx, hrx, hother, congrArg State.setDiscovered heq⟩

/-- Settles O16: the echo is emitted and the flag set inside the handling of the frame. -/
theorem discoverRequestIsAnswered : Obligations.DiscoverRequestIsAnswered := by
  rintro s T addr k slot hT ha hs _ _ _ _ rfl rfl rfl rfl
  exact ⟨_, exec_reqDiscover_occupied hT ha hs, leftAnswered_setDiscovered s T _ _⟩

/-- Settles O17: the slot's type is emitted inside the handling of the frame. -/
theorem typeRequestIsAnswered : Obligations.TypeRequestIsAnswered := by
  rintro s T addr k slot hT ha hs _ _ _ _ _ rfl rfl rfl rfl rfl
  exact ⟨_, exec_reqType_occupied hT ha hs, leftAnswered s T _ _⟩

/-- Settles O18: the slot's value is emitted inside the handling of the frame. -/
theorem measurementRequestIsAnswered : Obligations.MeasurementRequestIsAnswered := by
  rintro s T addr k slot hT ha hs _ _ _ _ _ _ _ rfl rfl rfl rfl rfl rfl rfl
  exact ⟨_, exec_reqMeasurement_occupied hT ha hs, leftAnswered s T _ _⟩

/-! ## The response word inside a request (30_encoding.md R96, 43_dispatch.md R164) -/

/-- The flag as a request with command `cmd` leaves it: set by a DISCOVER (43_dispatch.md R166). -/
def State.noteCommand (cmd : Nibble) (s : State) : State :=
  { s with discovered := s.discovered || decide (cmd = 0x8) }

theorem noteCommand_discover (s : State) : s.noteCommand 0x8 = s.setDiscovered := by
  simp [State.noteCommand, State.setDiscovered]

theorem noteCommand_other {cmd : Nibble} (h : cmd ≠ 0x8) (s : State) : s.noteCommand cmd = s := by
  rw [State.noteCommand, decide_eq_false h, Bool.or_false]

/-- What the response word of a request that is answered is, for the slot addressed. -/
def AnsweredBy (cmd addr : Nibble) (slot : Slot) (d : Half) (r : Instr) : Prop :=
  (cmd = 0x8 ∧ r = .rspDiscover addr d) ∨ (cmd = 0x9 ∧ r = .rspType addr slot.type d) ∨
    (cmd = 0xA ∧ r = .rspMeasurement addr slot.value d)

theorem AnsweredBy.port {cmd addr : Nibble} {slot : Slot} {d : Half} {r : Instr} (h : AnsweredBy cmd addr slot d r) :
    r.port = .response := by
  rcases h with ⟨-, rfl⟩ | ⟨-, rfl⟩ | ⟨-, rfl⟩ <;> rfl

/-- A valid request to an occupied slot emits the response word of the slot, between the beginning and the end of its
frame's handling. -/
theorem exec_request_emits_word {s : State} {T : Nat} {cmd addr : Nibble} {d : Half} {k : Fin CAP} {slot : Slot}
    {i r : Instr} (hT : s.transport = some T) (ha : addr.toNat = k.val + 1) (hs : s.slots[k] = some slot)
    (hi : IsRequest i cmd addr (chk2 LEN4 (cmdAddr cmd addr))) (hr : AnsweredBy cmd addr slot d r)
    (hwf : r.wf = true) :
    exec i s = .next ((((s.beginFrame T (requestFrame cmd addr (chk2 LEN4 (cmdAddr cmd addr)))).countRequest.emit T
      (encode r)).noteCommand cmd).endFrame T) := by
  rcases hr with ⟨rfl, rfl⟩ | ⟨rfl, rfl⟩ | ⟨rfl, rfl⟩
  · obtain rfl := hi.unique (.inl ⟨rfl, rfl⟩)
    rw [encode_rspDiscover hwf, noteCommand_discover]
    exact exec_reqDiscover_occupied hT ha hs
  · obtain rfl := hi.unique (.inr (.inl ⟨rfl, rfl⟩))
    rw [encode_rspType hwf, noteCommand_other (by decide)]
    exact exec_reqType_occupied hT ha hs
  · obtain rfl := hi.unique (.inr (.inr (.inl ⟨rfl, rfl⟩)))
    rw [encode_rspMeasurement hwf, noteCommand_other (by decide)]
    exact exec_reqMeasurement_occupied hT ha hs

/-- Where a response is constructed: the frame buffered, the arriving bytes received, the request counted. -/
theorem counted_eq (s : State) (T : Nat) (f : Frame) :
    (s.beginFrame T f).countRequest = { s with
      reqCount := nextCount s.params s.reqCount, diag := s.diagAfter [.frameSeen f], fsm := .processing,
      frame := some f, arriving := [], wires := (s.beginFrame T f).wires } := by
  apply State.eq_of_fields <;> simp [State.diagAfter]

/-- Settles O19: the state between is the one in which the request is counted, and the response word is run on it. -/
theorem responsesAreEmittedInsideTheRequest : Obligations.ResponsesAreEmittedInsideTheRequest := by
  rintro s T cmd addr _ d k slot i r _ hT ha hs hi rfl rfl hr hwf
  have hT1 (f : Frame) : (s.beginFrame T f).countRequest.transport = some T := by simpa using hT
  refine ⟨_, _, _, ?_, ?_, ?_, counted_eq s T _, exec_response (hT1 _) (AnsweredBy.port hr) hwf,
    exec_request_emits_word hT ha hs hi hr hwf, ?_, ?_, ?_, ?_⟩
  · simp [State.rx]
  · exact State.tx_beginFrame s T T _
  · exact fun T' hT' => ⟨State.rx_beginFrame_other s T T' _ hT', State.tx_beginFrame s T T' _⟩
  · exact State.rx_endFrame _ T
  · exact State.tx_endFrame _ T T
  · exact fun T' hT' => ⟨State.rx_endFrame_other _ T T' hT', State.tx_endFrame _ T T'⟩
  · have hflag : ((s.beginFrame T (requestFrame cmd addr (chk2 LEN4 (cmdAddr cmd addr)))).countRequest.emit T
        (encode r)).discovered = s.discovered := by simp
    rw [← hflag]
    rfl

/-! ## The transaction presented (30_encoding.md R94, 60_exceptions.md R225, R226) -/

/-- Settles O43: a transaction that decodes runs, and its conclusion is the step's. -/
theorem stepRunsThePresentedInstruction : Obligations.StepRunsThePresentedInstruction := by
  rintro s _ rest bytes late after i hagenda hfaulted hrefused hd rfl
  have hstep : step s = .next (State.conclude { s with agenda := rest, arriving := late }
      (exec i { s with agenda := rest, arriving := late })) :=
    (step_cons hagenda).trans (runHost_ok hfaulted hrefused hd)
  refine ⟨fun t h => ?_, fun r h => ?_, fun r h => ?_⟩ <;> rw [hstep, h] <;> rfl

end Sys2Proof.Machine
end

section
/-! PROOFS. 40_sensor_table.md: the three cases of UPSERT (R110), the address as the order of first insertion (R111),
FIND_BY_TYPE (R112, R113), AT (R114) and the count of the occupied slots (R116). -/

namespace Sys2Proof.Machine

open Sys2Proof

/-! ## Slots (10_state.md R32) -/

theorem occupied_iff_ne_none (table : Table) (i : Fin CAP) : occupied table i = true ↔ table[i] ≠ none :=
  Option.isSome_iff_ne_none

/-! ## UPSERT (40_sensor_table.md R110, 44_host_interface.md R192) -/

/-- UPSERT is one operation, at the host port and at the table port. -/
theorem exec_upsert {i : Instr} {t : Byte} {v : Half} (hi : i = .hostUpsert t v ∨ i = .tblUpsert t v) (s : State) :
    exec i s = .next (upsertAnswered t v s) := by
  rcases hi with rfl | rfl <;> rfl

/-- A type that FIND_BY_TYPE finds has its value overwritten. -/
theorem upsertAnswered_of_bound {s : State} {t : Byte} {k : Fin CAP} (h : findByType s.slots t = some k) (v : Half) :
    upsertAnswered t v s = { s with
      slots := s.slots.set k (some { type := t, value := v }), results := s.results ++ [.applied true] } := by
  rcases upsert_cases t v s with ⟨i, -, hi, -, e⟩ | ⟨j, hnone, -⟩ | ⟨hnone, -⟩
  · obtain rfl := Option.some.inj (hi.symm.trans h)
    rw [upsertAnswered, e]
    rfl
  · cases hnone.symm.trans h
  · cases hnone.symm.trans h

/-- A new type occupies the first free slot. -/
theorem upsertAnswered_of_free {s : State} {t : Byte} {j : Fin CAP} (hnew : findByType s.slots t = none)
    (hfree : firstFree s.slots = some j) (v : Half) :
    upsertAnswered t v s = { s with
      slots := s.slots.set j (some { type := t, value := v }), results := s.results ++ [.applied true] } := by
  rcases upsert_cases t v s with ⟨i, -, hi, -⟩ | ⟨j', -, hj', e⟩ | ⟨-, hfull, -⟩
  · cases hnew.symm.trans hi
  · obtain rfl := Option.some.inj (hj'.symm.trans hfree)
    rw [upsertAnswered, e]
    rfl
  · cases hfull.symm.trans hfree

/-- A new type that finds no free slot is not stored, and the event is offered to the sink. -/
theorem upsertAnswered_of_full {s : State} {t : Byte} (hnew : findByType s.slots t = none)
    (hfull : firstFree s.slots = none) (v : Half) :
    upsertAnswered t v s = { s with
      diag := s.diagAfter [.capacityExceeded t v], results := s.results ++ [.applied false] } := by
  rcases upsert_cases t v s with ⟨i, -, hi, -⟩ | ⟨j, -, hfree, -⟩ | ⟨-, -, e⟩
  · cases hnew.symm.trans hi
  · cases hfull.symm.trans hfree
  · rw [upsertAnswered, e]
    apply State.eq_of_fields <;> simp [State.diagAfter]

/-- Settles O9: the premises of each case say what FIND_BY_TYPE and the search for a free slot answer. -/
theorem upsertFollowsItsThreeCases : Obligations.UpsertFollowsItsThreeCases := by
  intro s t v i hi hd
  rw [exec_upsert hi]
  refine ⟨fun k old hk => ?_, fun hnew => ⟨fun j hj hbelow => ?_, fun hfull => ?_⟩⟩
  · have hfind := (findByType_eq_some _ hd t k).2 ⟨old, hk⟩
    rw [upsertAnswered_of_bound hfind]
  · have hfree := (firstFree_eq_some _ j).2 ⟨hj, fun k hk => (occupied_iff_ne_none _ k).2 (hbelow k hk)⟩
    rw [upsertAnswered_of_free ((findByType_eq_none _ t).2 hnew) hfree]
  · have hnone := (firstFree_eq_none _).2 fun k => (occupied_iff_ne_none _ k).2 (hfull k)
    rw [upsertAnswered_of_full ((findByType_eq_none _ t).2 hnew) hnone]

/-! ## FIND_BY_TYPE and AT (40_sensor_table.md R112, R113, R114) -/

/-- Settles O11: the answer is that of `findByType`, with distinct types the only holder. -/
theorem findByTypeAnswersTheOnlyHolder : Obligations.FindByTypeAnswersTheOnlyHolder := fun s t hd =>
  ⟨findByType s.slots t, rfl, findByType_eq_some s.slots hd t, findByType_eq_none s.slots t⟩

/-- Settles O12: the answer is that of `slotAt`, and it is ABSENT when no slot is answered. -/
theorem atAnswersTheOccupiedSlotBehindAnAddress : Obligations.AtAnswersTheOccupiedSlotBehindAnAddress := by
  intro s a
  have hsome (k : Fin CAP) : slotAt s.slots a = some k ↔ a.toNat = k.val + 1 ∧ s.slots[k] ≠ none := by
    rw [slotAt_eq_some, occupied_iff_ne_none]
  refine ⟨slotAt s.slots a, rfl, hsome, ?_⟩
  simp only [Option.eq_none_iff_forall_ne_some (o := slotAt s.slots a), ne_eq, hsome, not_and, not_not]

/-! ## The count of the occupied slots (40_sensor_table.md R116) -/

/-- The slots that are occupied, as a set. -/
def occupiedSlots (table : Table) : Finset (Fin CAP) := Finset.univ.filter fun k => table[k] ≠ none

theorem mem_occupiedSlots {table : Table} {k : Fin CAP} : k ∈ occupiedSlots table ↔ occupied table k = true := by
  simp [occupiedSlots, occupied_iff_ne_none]

/-- OCCUPIED_COUNT visits every slot once. -/
theorem occupiedCount_eq_card (table : Table) : occupiedCount table = (occupiedSlots table).card := by
  have hnodup : (slotOrder.filter (occupied table)).Nodup := List.Nodup.filter _ (by decide)
  rw [occupiedCount, ← List.toFinset_card_of_nodup hnodup]
  congr 1
  ext k
  simp [mem_occupiedSlots, mem_slotOrder]

theorem occupiedCount_le_cap (table : Table) : occupiedCount table ≤ CAP := by
  simpa [occupiedCount_eq_card] using Finset.card_le_univ (occupiedSlots table)

/-- Settles O13: at both ports the answer is OCCUPIED_COUNT, which is at most 4 and so fits three bits. -/
theorem occupiedCountCountsTheOccupiedSlots : Obligations.OccupiedCountCountsTheOccupiedSlots := by
  intro s i hi
  refine ⟨BitVec.ofNat 3 (occupiedCount s.slots), by rcases hi with rfl | rfl <;> rfl, ?_⟩
  have hlt : occupiedCount s.slots < 2 ^ 3 := (occupiedCount_le_cap s.slots).trans_lt (by decide)
  rw [BitVec.toNat_ofNat, Nat.mod_eq_of_lt hlt]
  exact occupiedCount_eq_card s.slots

/-! ## The order of first insertion (40_sensor_table.md R111, 10_state.md R33) -/

/-- Writing a binding into a slot makes that slot occupied, and no other. -/
theorem occupiedSlots_set (table : Table) (j : Fin CAP) (x : Slot) :
    occupiedSlots (table.set j (some x)) = insert j (occupiedSlots table) := by
  ext k
  rw [Finset.mem_insert, mem_occupiedSlots, mem_occupiedSlots, occupied_iff_ne_none, occupied_iff_ne_none]
  by_cases hkj : k = j
  · subst hkj
    simp
  · simp [table_set_other _ _ _ _ hkj, hkj]

/-- Overwriting an occupied slot leaves the count. -/
theorem occupiedCount_set_of_occupied {table : Table} {j : Fin CAP} (h : occupied table j = true) (x : Slot) :
    occupiedCount (table.set j (some x)) = occupiedCount table := by
  rw [occupiedCount_eq_card, occupiedCount_eq_card, occupiedSlots_set,
    Finset.insert_eq_of_mem (mem_occupiedSlots.2 h)]

/-- Occupying a free slot counts one more. -/
theorem occupiedCount_set_of_free {table : Table} {j : Fin CAP} (h : ¬ occupied table j = true) (x : Slot) :
    occupiedCount (table.set j (some x)) = occupiedCount table + 1 := by
  rw [occupiedCount_eq_card, occupiedCount_eq_card, occupiedSlots_set,
    Finset.card_insert_of_notMem (mt mem_occupiedSlots.1 h)]

/-- With the occupied slots an initial segment, they are the slots below their count. -/
theorem occupied_iff_lt_occupiedCount {table : Table} (h : OccupiedInitial table) (i : Fin CAP) :
    occupied table i = true ↔ i.val < occupiedCount table := by
  rw [occupiedCount_eq_card]
  constructor
  · intro hi
    have hsub : Finset.Iic i ⊆ occupiedSlots table := fun k hk =>
      mem_occupiedSlots.2 ((Finset.mem_Iic.1 hk).eq_or_lt.elim (fun e => e ▸ hi) fun hlt => h k i hlt hi)
    simpa using Finset.card_le_card hsub
  · intro hlt
    by_contra hi
    have hsub : occupiedSlots table ⊆ Finset.Iio i := fun k hk => by
      have hk := mem_occupiedSlots.1 hk
      rw [Finset.mem_Iio]
      by_contra hik
      exact hi ((not_lt.1 hik).eq_or_lt.elim (fun e => e ▸ hk) fun hlt => h i k hlt hk)
    have hle := Finset.card_le_card hsub
    rw [Fin.card_Iio] at hle
    omega

/-- With the occupied slots an initial segment, the slot that the count names is the first free one. -/
theorem firstFree_of_occupiedCount {table : Table} (h : OccupiedInitial table) {j : Fin CAP}
    (hj : occupiedCount table = j.val) : firstFree table = some j := by
  have hocc (i : Fin CAP) : occupied table i = true ↔ i.val < j.val := hj ▸ occupied_iff_lt_occupiedCount h i
  refine (firstFree_eq_some _ _).2 ⟨?_, fun i hij => (hocc i).2 hij⟩
  simpa [occupied_iff_ne_none] using hocc j

/-- The address of slot `j` is `j + 1` (10_state.md R31). -/
theorem toNat_addrOfSlot (j : Fin CAP) : (BitVec.ofNat 4 (j.val + 1)).toNat = j.val + 1 := by
  revert j
  decide

/-- Settles O10: the slot that the count names is the first free one, and a slot that holds the type is overwritten. -/
theorem addressIsOrderOfFirstInsertion : Obligations.AddressIsOrderOfFirstInsertion := by
  intro s t v hinit hd
  refine ⟨fun hnew j hj => ⟨_, exec_hostUpsert t v s, ?_⟩, ?_⟩
  · have hfree := firstFree_of_occupiedCount hinit hj
    have hvacant : ¬ occupied s.slots j = true := by simp [occupied_iff_lt_occupiedCount hinit, hj]
    rw [upsertAnswered_of_free ((findByType_eq_none _ t).2 hnew) hfree, hj]
    refine ⟨table_set_same _ _ _, (slotAt_eq_some _ _ _).2 ⟨toNat_addrOfSlot j, ?_⟩, ?_⟩
    · rw [occupied_iff_ne_none, table_set_same]
      exact Option.some_ne_none _
    · rw [occupiedCount_set_of_free hvacant, hj]
  · rintro k ⟨_, old⟩ hk rfl
    have hfind := (findByType_eq_some _ hd _ k).2 ⟨old, hk⟩
    refine ⟨_, exec_hostUpsert _ v s, ?_⟩
    rw [upsertAnswered_of_bound hfind]
    exact ⟨table_set_same _ _ _, occupiedCount_set_of_occupied ((occupied_iff _ _).2 ⟨_, hk⟩) _⟩

end Sys2Proof.Machine
end

section
/-! PROOFS. 41_checksum.md: the value of CHK2 and CHK4 (R130 to R132), every response written re-validates (R136), and
the DISCOVER response is its request again (R137). -/

namespace Sys2Proof.Machine

open Sys2Proof

/-! ## Responses written (41_checksum.md R136) -/

/-- `TX` of transport `T` is as before, or one response that re-validates was appended to it. -/
def TxGrowsByAResponse (T : Nat) (s t : State) : Prop :=
  t.tx T = s.tx T ∨ ∃ r, t.tx T = s.tx T ++ r ∧ Revalidates r

/-- EMIT of a valid response on `T'` appends it there and leaves every other transport. -/
theorem txGrowsByAResponse_emit {r : List Byte} (hr : Revalidates r) (T T' : Nat) (s : State) :
    TxGrowsByAResponse T s (s.emit T' r) := by
  by_cases hT : T = T'
  · subst hT
    exact .inr ⟨r, State.tx_emit s T r, hr⟩
  · exact .inl (State.tx_emit_other s T' T r hT)

/-- The handling of a frame emits one response or none. -/
theorem Served.txGrowsByAResponse {T' : Nat} {s m : State} (h : Served T' s m) (T : Nat) :
    TxGrowsByAResponse T s m := by
  cases h with
  | dropped e => exact .inl (State.tx_offer s e T)
  | silent e => exact .inl (State.tx_offer s.countRequest e T)
  | answered r hlen hr => exact txGrowsByAResponse_emit hr T T' s.countRequest
  | discovered r hlen hr => exact txGrowsByAResponse_emit hr T T' s.countRequest

/-- What surrounds the handling of a frame, from `beginFrame` to `endFrame`, writes no `TX`. -/
theorem Served.txGrowsByAResponse_frame {T' : Nat} {f : Frame} {s m : State} (h : Served T' (s.beginFrame T' f) m)
    (T : Nat) : TxGrowsByAResponse T s (m.endFrame T') := by
  simpa only [TxGrowsByAResponse, State.tx_beginFrame, State.tx_endFrame] using h.txGrowsByAResponse T

/-- Every instruction that goes on writes one response or none. -/
theorem Ran.txGrowsByAResponse {s t : State} {i : Instr} (h : Ran s i t) (T : Nat) : TxGrowsByAResponse T s t := by
  cases h with
  | request T' f m hp hT h hd => exact h.txGrowsByAResponse_frame T
  | response T' r hp hT hr => exact txGrowsByAResponse_emit hr T T' s
  | init T' hT hp => exact .inl rfl
  | pollIdle T' hT h => exact .inl rfl
  | poll T' f rest m hT hrx h =>
    simpa only [TxGrowsByAResponse, State.tx_answer, State.tx_setRx] using h.txGrowsByAResponse_frame T
  | setDebug e => exact .inl rfl
  | upsert ty v hi => rw [upsertAnswered_eq]; exact .inl rfl
  | read r hp hi => exact .inl rfl

/-- Settles O7: whatever way an instruction goes on, it writes one valid response or none. -/
theorem responsesRevalidate : Obligations.ResponsesRevalidate := fun _ _ _ T h =>
  (exec_ran h).txGrowsByAResponse T

/-! ## The value of a checksum (41_checksum.md R130 to R132) -/

/-- Below 2^16 the reduction does not change `0xFFFF - n`. -/
theorem toNat_ofNat_ffff_sub (n : Nat) : (BitVec.ofNat 16 (0xFFFF - n)).toNat = 0xFFFF - n := by
  rw [BitVec.toNat_ofNat]
  omega

/-- Of a 16-bit sum, `0xFFFF - n` is the bitwise complement. -/
theorem ofNat_ffff_sub_eq_not {n : Nat} (h : n ≤ 0xFFFF) : BitVec.ofNat 16 (0xFFFF - n) = ~~~(BitVec.ofNat 16 n) := by
  apply BitVec.eq_of_toNat_eq
  rw [toNat_ofNat_ffff_sub, BitVec.toNat_not, BitVec.toNat_ofNat]
  omega

theorem toNat_chk2 (b0 b1 : Byte) : (chk2 b0 b1).toNat = 0xFFFF - (b0.toNat + b1.toNat) := toNat_ofNat_ffff_sub _

theorem toNat_chk4 (b0 b1 b2 b3 : Byte) :
    (chk4 b0 b1 b2 b3).toNat = 0xFFFF - (b0.toNat + b1.toNat + b2.toNat + b3.toNat) := toNat_ofNat_ffff_sub _

/-- Settles O6: a byte is at most 0xFF, so that two bytes sum to at most 0x1FE and four to at most 0x3FC. -/
theorem checksumsAreComplementsOfSums : Obligations.ChecksumsAreComplementsOfSums := by
  intro b0 b1 b2 b3
  have hsum2 : b0.toNat + b1.toNat ≤ 0x1FE := by omega
  have hsum4 : b0.toNat + b1.toNat + b2.toNat + b3.toNat ≤ 0x3FC := by omega
  refine ⟨toNat_chk2 b0 b1, ?_, ofNat_ffff_sub_eq_not (by omega), toNat_chk4 b0 b1 b2 b3, ?_,
    ofNat_ffff_sub_eq_not (by omega)⟩
  · rw [toNat_chk2]; omega
  · rw [toNat_chk4]; omega

/-! ## The echo (41_checksum.md R137) -/

/-- A frame with length byte 0x04 that passes the checksum check is the DISCOVER response to its byte 1. -/
theorem discoverResponse_eq_frameBytes {f : Frame} (hlen : f.b0 = LEN4) (hchk : rxChk f = chk2 f.b0 f.b1) :
    discoverResponse f.b1 = frameBytes f := by
  rw [discoverResponse, frameBytes, ← hlen, ← hchk, rxChk, lo16_le16, hi16_le16]

/-- Settles O8: CHK2 of the first two bytes is the checksum received. -/
theorem discoverResponseEqualsItsRequest : Obligations.DiscoverResponseEqualsItsRequest := fun _ hlen hchk =>
  discoverResponse_eq_frameBytes hlen hchk

end Sys2Proof.Machine
end

section
/-! PROOFS. 42_framing.md: POLL and the request it frames (R140, R142, R152), the drain (R147, R148), frames that fail
the length or the checksum check (R143, R145), the bytes that arrive inside a transaction (R141), and what needs a frame
or a transport (R149, R153). -/

namespace Sys2Proof.Machine

open Sys2Proof

/-! ## A POLL with a frame to read (42_framing.md R140, R142, R148) -/

/-- The four oldest bytes of a receive queue that holds at least four are a frame (42_framing.md R142). -/
theorem exists_frame_of_length {bytes : List Byte} (h : 4 ≤ bytes.length) :
    ∃ (f : Frame) (rest : List Byte), bytes = f.b0 :: f.b1 :: f.b2 :: f.b3 :: rest := by
  match bytes, h with
  | b0 :: b1 :: b2 :: b3 :: rest, _ => exact ⟨⟨b0, b1, b2, b3⟩, rest, rfl⟩

/-- With a transport bound, the handling of a frame goes on, and it ends with the end of that handling. -/
theorem exists_serveFrame_eq_endFrame {s : State} {T : Nat} (hT : s.transport = some T) (f : Frame) :
    ∃ m : State, serveFrame T f s = .next (m.endFrame T) := by
  obtain ⟨m, -, he⟩ := serveFrame_served T f s hT
  exact ⟨m, he⟩

/-- Settles O28: the state that holds only the later bytes is the one the four reads leave, and the frame is handled on
it as the request it decodes to. -/
theorem pollRunsTheRequestItFrames : Obligations.PollRunsTheRequestItFrames := by
  intro s T f rest i hT hrx hd
  have hserve : serveFrame T f (s.setRx T rest) = exec i (s.setRx T rest) := serveFrame_of_decodeFrame hd T _
  obtain ⟨m, hm⟩ := exists_serveFrame_eq_endFrame (s := s.setRx T rest) hT f
  refine ⟨s.setRx T rest, m.endFrame T,
    ⟨State.rx_setRx s T rest, State.tx_setRx s T T rest, fun T' hT' => ?_, rfl⟩, ?_, ?_⟩
  · exact ⟨State.rx_setRx_other s T T' rest hT', State.tx_setRx s T T' rest⟩
  · rw [← hserve, hm]
  · rw [exec_hostPoll_of_frame hT hrx, hm]
    rfl

/-- Settles O31: the handling of a frame ends with the drain and with `fsm` IDLE, whatever the frame is. -/
theorem framedPollEndsIdleAndDrained : Obligations.FramedPollEndsIdleAndDrained := by
  intro s T hT hlen
  obtain ⟨f, rest, hrx⟩ := exists_frame_of_length hlen
  obtain ⟨m, hm⟩ := exists_serveFrame_eq_endFrame (s := s.setRx T rest) hT f
  refine ⟨(m.endFrame T).answer .done, ?_, State.endFrame_fsm m T, State.endFrame_frame m T, State.rx_endFrame m T⟩
  rw [exec_hostPoll_of_frame hT hrx, hm]
  rfl

/-! ## Frames that fail a check (42_framing.md R143, R145) -/

/-- A frame for which nothing but an event is offered is left in silence and not counted. -/
theorem leftInSilence_dropped (s : State) (T : Nat) (f : Frame) (e : DiagEvent) :
    LeftInSilence s (((s.beginFrame T f).offer e).endFrame T) T s.reqCount f e := by
  refine ⟨State.rx_endFrame _ T, by simp, fun T' hT' => ⟨?_, by simp⟩, ?_⟩
  · simp [State.rx_endFrame_other _ _ _ hT', State.rx_beginFrame_other _ _ _ _ hT']
  · apply State.eq_of_fields
    case h10 => by_cases hd : s.debugEn <;> simp [State.diagAfter, hd]
    all_goals simp

/-- Taking the frame out of `RX` before it is handled changes nothing of this. -/
theorem LeftInSilence.of_setRx {s t : State} {T n : Nat} {rest : List Byte} {f : Frame} {e : DiagEvent}
    (h : LeftInSilence (s.setRx T rest) t T n f e) : LeftInSilence s t T n f e := by
  obtain ⟨hrx, htx, hother, heq⟩ := h
  refine ⟨hrx, htx.trans (State.tx_setRx s T T rest), fun T' hT' => ?_, heq⟩
  obtain ⟨hrx', htx'⟩ := hother T' hT'
  exact ⟨hrx'.trans (State.rx_setRx_other s T T' rest hT'), htx'.trans (State.tx_setRx s T T' rest)⟩

/-- Settles O29: a frame with another length byte decodes to no request, and is dropped. -/
theorem pollDropsABadLength : Obligations.PollDropsABadLength := by
  intro s T f rest hT hrx hlen
  have hd : decodeFrame f = none := if_neg hlen
  refine ⟨dropBadLength T f (s.setRx T rest), ?_, (leftInSilence_dropped _ T f _).of_setRx⟩
  rw [exec_hostPoll_of_frame hT hrx, serveFrame_of_decodeFrame_none hd]
  rfl

/-- A request is the checksum check and then, for some command, the dispatch, between the beginning and the end of its
frame's handling (42_framing.md R140). -/
theorem IsRequest.exec_eq_checked {i : Instr} {cmd addr : Nibble} {chk : Half} (h : IsRequest i cmd addr chk)
    {s : State} {T : Nat} (hT : s.transport = some T) :
    let f := requestFrame cmd addr chk
    ∃ command : State → State,
      exec i s = .next ((ifChecksumOk f (dispatch f command) (s.beginFrame T f)).endFrame T) := by
  rcases h with ⟨rfl, rfl⟩ | ⟨rfl, rfl⟩ | ⟨rfl, rfl⟩ | ⟨rfl, -⟩ | ⟨rfl, -⟩ <;>
    exact ⟨_, serveRequest_bound hT _ _⟩

/-- A frame that fails the checksum check never reaches the dispatch (42_framing.md R144, R145). -/
theorem ifChecksumOk_of_ne {f : Frame} (h : rxChk f ≠ chk2 f.b0 f.b1) (dispatched : State → State) (s : State) :
    ifChecksumOk f dispatched s = s.offer (.badChecksum f) :=
  if_neg fun hok => h ((chkOk_iff f).1 hok).symm

/-- Settles O23: the checksum check stands before the counter, so that only its event is offered. -/
theorem badChecksumIsDroppedUncounted : Obligations.BadChecksumIsDroppedUncounted := by
  rintro s T cmd addr c i _ hT hi hc rfl
  obtain ⟨command, hexec⟩ := hi.exec_eq_checked hT
  have hbad : rxChk (requestFrame cmd addr c) ≠ chk2 LEN4 (cmdAddr cmd addr) := by
    rw [rxChk_requestFrame]
    exact hc
  rw [ifChecksumOk_of_ne hbad] at hexec
  exact ⟨_, hexec, leftInSilence_dropped s T _ _⟩

/-! ## Bytes arriving inside a transaction (42_framing.md R141) -/

/-- The end of a frame's handling leaves nothing in `RX`, so that a further drain changes nothing. -/
theorem drain_endFrame (m : State) (T : Nat) : (m.endFrame T).setRx T [] = m.endFrame T := by
  apply State.eq_of_fields <;> simp

/-- The end of a frame's handling depends on what is left once `RX` is drained. -/
theorem endFrame_congr_of_drain {a b : State} {T : Nat} (h : a.setRx T [] = b.setRx T []) :
    a.endFrame T = b.endFrame T :=
  congrArg (fun s : State => { s with fsm := .idle, frame := none }) h

/-- Bytes arriving when a frame's handling begins reach `RX` alone. -/
theorem drain_beginFrame_arriving (s : State) (T : Nat) (f : Frame) (a b : List Byte) :
    (State.beginFrame T f { s with arriving := a }).setRx T [] =
      (State.beginFrame T f { s with arriving := b }).setRx T [] := by
  apply State.eq_of_fields <;> simp [State.rx]

/-- What arrives inside the handling of a frame is drained at its end, and read by nothing before. -/
theorem serveFrame_arriving {s : State} {T : Nat} (hT : s.transport = some T) (f : Frame) (a b : List Byte) :
    serveFrame T f { s with arriving := a } = serveFrame T f { s with arriving := b } := by
  have hcongr := serveFrame_congr (s := { s with arriving := a }) (u := { s with arriving := b }) hT hT (forgets_rx T)
    (fun _ _ h => congrArg (State.setRx T []) (endFrame_congr_of_drain h)) (drain_beginFrame_arriving s T f a b)
  obtain ⟨m, hm⟩ := exists_serveFrame_eq_endFrame (s := { s with arriving := a }) hT f
  obtain ⟨n, hn⟩ := exists_serveFrame_eq_endFrame (s := { s with arriving := b }) hT f
  rw [hm, hn] at hcongr ⊢
  simpa only [seenThrough, drain_endFrame] using hcongr

/-- Settles O32: the four reads leave the arriving bytes as they are, and the handling of the frame drains them. -/
theorem bytesArrivingInsideAPollAreDiscarded : Obligations.BytesArrivingInsideAPollAreDiscarded := by
  intro s T a b hT hlen
  obtain ⟨f, rest, hrx⟩ := exists_frame_of_length hlen
  have hpoll (c : List Byte) : exec .hostPoll { s with arriving := c } =
      returning .done (serveFrame T f { s.setRx T rest with arriving := c }) :=
    exec_hostPoll_of_frame (s := { s with arriving := c }) hT hrx
  rw [hpoll a, hpoll b, serveFrame_arriving (s := s.setRx T rest) hT f a b]

/-- Settles O45: the end of a transaction appends them to the `RX` of the bound transport, or drops them. -/
theorem lateBytesReachTheReceiveQueue : Obligations.LateBytesReachTheReceiveQueue := by
  intro s
  refine ⟨State.settle_arriving s, State.settle_eq s, fun T hT => ?_, fun hT => ?_⟩
  · rw [State.settle_bound hT]
    exact ⟨State.rx_arrive s T, State.tx_arrive s T T,
      fun T' hT' => ⟨State.rx_arrive_other s T T' hT', State.tx_arrive s T T'⟩⟩
  · rw [State.settle_unbound hT]

/-! ## Without a frame, without a transport (42_framing.md R149, R153) -/

/-- With fewer than four bytes there is no frame to take, and the POLL returns. -/
theorem exec_hostPoll_without_frame {s : State} {T : Nat} (hT : s.transport = some T) (hfew : s.rxAvail T < 4) :
    exec .hostPoll s = .next (s.answer .done) := by
  simp only [exec, execHostPoll, hT, State.takeFrame_none s T hfew]

/-- Settles O25: all that a POLL does without a frame is to return. -/
theorem pollWithoutAFrameIsANoOp : Obligations.PollWithoutAFrameIsANoOp := fun _ _ hT hfew =>
  exec_hostPoll_without_frame hT hfew

/-- Settles O26: a POLL looks for its transport before anything else. -/
theorem pollBeforeInitFaults : Obligations.PollBeforeInitFaults := by
  intro s hT
  simp only [exec, execHostPoll, hT]

theorem emitBound_unbound {s : State} (hT : s.transport = none) (r : List Byte) : emitBound r s = .fault .unbound := by
  simp only [emitBound, hT]

/-- Settles O27: a request is served, and a response emitted, on the bound transport only. -/
theorem wireWordsNeedATransport : Obligations.WireWordsNeedATransport := by
  intro s i hT hp
  cases i <;> simp only [Instr.port, reduceCtorEq, or_false, or_true] at hp
  case reqDiscover | reqType | reqMeasurement | reqUnhandledLow | reqUnhandledHigh => exact serveRequest_unbound hT _ _
  case rspDiscover | rspType | rspMeasurement => exact emitBound_unbound hT _

end Sys2Proof.Machine
end

section
/-! PROOFS. 43_dispatch.md: valid requests that get no response (R160 to R162, R176), and when a POLL answers (R177). -/

namespace Sys2Proof.Machine

open Sys2Proof

/-! ## The dispatch of a valid request (43_dispatch.md R160 to R162, R176) -/

/-- A frame that passes the checksum check reaches the dispatch (42_framing.md R144). -/
theorem ifChecksumOk_of_eq {f : Frame} (h : rxChk f = chk2 f.b0 f.b1) (dispatched : State → State) (s : State) :
    ifChecksumOk f dispatched s = dispatched s :=
  if_pos ((chkOk_iff f).2 h.symm)

theorem dispatch_of_handled {f : Frame} (h : 1 ≤ (addrOf f.b1).toNat ∧ (addrOf f.b1).toNat ≤ 4)
    (command : State → State) (s : State) : dispatch f command s = command s.countRequest :=
  if_pos ((addrHandled_iff _).2 h)

theorem dispatch_of_unhandled {f : Frame} (h : (addrOf f.b1).toNat < 1 ∨ 4 < (addrOf f.b1).toNat)
    (command : State → State) (s : State) : dispatch f command s = s.countRequest.offer (.addrIgnored f) := by
  refine if_neg fun hok => ?_
  obtain ⟨hge, hle⟩ := (addrHandled_iff _).1 hok
  omega

theorem addr_of_slot_handled {addr : Nibble} {k : Fin CAP} (h : addr.toNat = k.val + 1) :
    1 ≤ addr.toNat ∧ addr.toNat ≤ 4 := by
  have hk : k.val < 4 := k.isLt
  omega

theorem exists_slot_of_addr {addr : Nibble} (h : 1 ≤ addr.toNat ∧ addr.toNat ≤ 4) :
    ∃ k : Fin CAP, addr.toNat = k.val + 1 :=
  ⟨⟨addr.toNat - 1, Nat.sub_one_lt_of_le h.1 h.2⟩, (Nat.sub_add_cancel h.1).symm⟩

/-- Each of the three commands looks up the addressed slot before anything else (43_dispatch.md R162). -/
theorem IsRequest.exec_eq_withSlot {i : Instr} {cmd addr : Nibble} {chk : Half} (h : IsRequest i cmd addr chk)
    (hcmd : cmd = 0x8 ∨ cmd = 0x9 ∨ cmd = 0xA) {s : State} {T : Nat} (hT : s.transport = some T) :
    let f := requestFrame cmd addr chk
    ∃ respond : Slot → State → State,
      exec i s = .next ((ifChecksumOk f (dispatch f (withSlot f respond)) (s.beginFrame T f)).endFrame T) := by
  rcases hcmd with rfl | rfl | rfl
  · obtain rfl := h.unique (.inl ⟨rfl, rfl⟩)
    exact ⟨_, serveRequest_bound hT _ _⟩
  · obtain rfl := h.unique (.inr (.inl ⟨rfl, rfl⟩))
    exact ⟨_, serveRequest_bound hT _ _⟩
  · obtain rfl := h.unique (.inr (.inr (.inl ⟨rfl, rfl⟩)))
    exact ⟨_, serveRequest_bound hT _ _⟩

/-- Every other command is ignored (43_dispatch.md R176). -/
theorem IsRequest.exec_eq_ignoreCommand {i : Instr} {cmd addr : Nibble} {chk : Half} (h : IsRequest i cmd addr chk)
    (hcmd : cmd.toNat < 0x8 ∨ 0xA < cmd.toNat) {s : State} {T : Nat} (hT : s.transport = some T) :
    let f := requestFrame cmd addr chk
    exec i s = .next ((ifChecksumOk f (dispatch f (ignoreCommand f)) (s.beginFrame T f)).endFrame T) := by
  rcases hcmd with hlow | hhigh
  · obtain rfl := h.unique (.inr (.inr (.inr (.inl ⟨rfl, hlow⟩))))
    exact serveRequest_bound hT _ _
  · obtain rfl := h.unique (.inr (.inr (.inr (.inr ⟨rfl, hhigh⟩))))
    exact serveRequest_bound hT _ _

/-- A frame that is counted, and for which nothing but an event is offered, is left in silence. -/
theorem leftInSilence_counted (s : State) (T : Nat) (f : Frame) (e : DiagEvent) :
    LeftInSilence s (((s.beginFrame T f).countRequest.offer e).endFrame T) T (nextCount s.params s.reqCount) f e := by
  refine ⟨State.rx_endFrame _ T, by simp, fun T' hT' => ⟨?_, by simp⟩, ?_⟩
  · simp [State.rx_endFrame_other _ _ _ hT', State.rx_beginFrame_other _ _ _ _ hT']
  · apply State.eq_of_fields
    case h10 => by_cases hd : s.debugEn <;> simp [State.diagAfter, hd]
    all_goals simp

/-- A valid request whose dispatch only counts it and offers an event is left in silence. -/
theorem exists_leftInSilence_of_dispatch {s : State} {T : Nat} {cmd addr : Nibble} {i : Instr} {e : DiagEvent}
    {command : State → State} :
    let f := requestFrame cmd addr (chk2 LEN4 (cmdAddr cmd addr))
    exec i s = .next ((ifChecksumOk f (dispatch f command) (s.beginFrame T f)).endFrame T) →
    dispatch f command (s.beginFrame T f) = (s.beginFrame T f).countRequest.offer e →
    ∃ s', exec i s = .next s' ∧ LeftInSilence s s' T (nextCount s.params s.reqCount) f e := by
  intro f hexec hdispatch
  rw [ifChecksumOk_of_eq (rxChk_requestFrame _ _ _), hdispatch] at hexec
  exact ⟨_, hexec, leftInSilence_counted s T f e⟩

/-! ## Valid requests without a response -/

/-- Settles O20: the look-up of the slot finds nothing to answer from. -/
theorem unoccupiedSlotAnswersNothing : Obligations.UnoccupiedSlotAnswersNothing := by
  rintro s T cmd addr _ k i _ hT hi hcmd ha hslot rfl rfl
  obtain ⟨respond, hexec⟩ := hi.exec_eq_withSlot hcmd hT
  refine exists_leftInSilence_of_dispatch hexec ?_
  rw [dispatch_of_handled (by rw [addrOf_requestFrame]; exact addr_of_slot_handled ha)]
  refine withSlot_absent _ respond _ fun j hj => ?_
  rw [addrOf_requestFrame] at hj
  obtain rfl : j = k := Fin.ext (by omega)
  simpa using hslot

/-- Settles O21: the address filter stands before the command, whatever the command is. -/
theorem unhandledAddressAnswersNothing : Obligations.UnhandledAddressAnswersNothing := by
  rintro s T cmd addr _ i _ hT hi ha rfl rfl
  obtain ⟨command, hexec⟩ := hi.exec_eq_checked hT
  refine exists_leftInSilence_of_dispatch hexec (dispatch_of_unhandled ?_ command _)
  rw [addrOf_requestFrame]
  exact ha

/-- Settles O22: past the address filter there is only the event. -/
theorem unhandledCommandAnswersNothing : Obligations.UnhandledCommandAnswersNothing := by
  rintro s T cmd addr _ i _ hT hi hcmd hge hle rfl rfl
  refine exists_leftInSilence_of_dispatch (hi.exec_eq_ignoreCommand hcmd hT) (dispatch_of_handled ?_ _ _)
  rw [addrOf_requestFrame]
  exact ⟨hge, hle⟩

/-! ## When a POLL answers (43_dispatch.md R177) -/

/-- A frame that passes both checks (42_framing.md R143, R145). -/
def FrameValid (f : Frame) : Prop := f.b0 = LEN4 ∧ rxChk f = chk2 f.b0 f.b1

/-- A valid request with these fields is one to answer: its command is one of the three and its address names an
occupied slot. -/
def AnswerDue (s : State) (cmd addr : Nibble) : Prop :=
  (cmd = 0x8 ∨ cmd = 0x9 ∨ cmd = 0xA) ∧ ∃ k : Fin CAP, addr.toNat = k.val + 1 ∧ s.slots[k] ≠ none

/-- What the handling of a frame leaves, the log apart: the request counter at `n`, the response counter at `m`, the flag
at `d`, the bytes `r` added to `TX`. -/
structure LeftWith (s t : State) (T n m : Nat) (d : Bool) (r : List Byte) : Prop where
  tx : t.tx T = s.tx T ++ r
  other : OtherWiresSame s t T
  eq : t = { s with
    reqCount := n, respCount := m, discovered := d, diag := t.diag, fsm := .idle, frame := none, arriving := [],
    wires := t.wires }

theorem LeftWith.reqCount {s t : State} {T n m : Nat} {d : Bool} {r : List Byte} (h : LeftWith s t T n m d r) :
    t.reqCount = n := by
  rw [h.eq]

theorem LeftWith.respCount {s t : State} {T n m : Nat} {d : Bool} {r : List Byte} (h : LeftWith s t T n m d r) :
    t.respCount = m := by
  rw [h.eq]

theorem LeftWith.discovered {s t : State} {T n m : Nat} {d : Bool} {r : List Byte} (h : LeftWith s t T n m d r) :
    t.discovered = d := by
  rw [h.eq]

/-- The result that the POLL returns is the one further change it makes. -/
theorem LeftWith.answer_done_eq {s t : State} {T n m : Nat} {d : Bool} {r : List Byte} (h : LeftWith s t T n m d r) :
    t.answer .done = { s with
      reqCount := t.reqCount, respCount := t.respCount, discovered := t.discovered, diag := t.diag,
      results := s.results ++ [.done], fsm := .idle, frame := none, arriving := [], wires := t.wires } := by
  rw [h.reqCount, h.respCount, h.discovered]
  exact congrArg (State.answer .done) h.eq

theorem LeftInSilence.leftWith {s t : State} {T n : Nat} {f : Frame} {e : DiagEvent}
    (h : LeftInSilence s t T n f e) : LeftWith s t T n s.respCount s.discovered [] := by
  obtain ⟨-, htx, hother, heq⟩ := h
  refine ⟨by simpa using htx, hother, ?_⟩
  rw [heq]

theorem LeftAnswered.leftWith {s t : State} {T : Nat} {f : Frame} {r : List Byte} {d : Bool}
    (h : LeftAnswered s t T f r d) :
    LeftWith s t T (nextCount s.params s.reqCount) (nextCount s.params s.respCount) d r := by
  obtain ⟨htx, -, hother, heq⟩ := h
  refine ⟨htx, hother, ?_⟩
  rw [heq]

/-- Taking the frame out of `RX` before it is handled changes nothing of this. -/
theorem LeftWith.of_setRx {s t : State} {T n m : Nat} {d : Bool} {r rest : List Byte}
    (h : LeftWith (s.setRx T rest) t T n m d r) : LeftWith s t T n m d r := by
  obtain ⟨htx, hother, heq⟩ := h
  refine ⟨by simpa using htx, fun T' hT' => ?_, heq⟩
  obtain ⟨hrx', htx'⟩ := hother T' hT'
  exact ⟨hrx'.trans (State.rx_setRx_other s T T' rest hT'), htx'.trans (State.tx_setRx s T T' rest)⟩

/-- The three ways in which the handling of a frame can end (43_dispatch.md R177). -/
inductive FrameOutcome (s : State) (T : Nat) (f : Frame) (t : State) : Prop where
  | dropped (hvalid : ¬FrameValid f) (h : LeftWith s t T s.reqCount s.respCount s.discovered [])
  | silent (hvalid : FrameValid f) (hdue : ¬AnswerDue s (cmdOf f.b1) (addrOf f.b1))
      (h : LeftWith s t T (nextCount s.params s.reqCount) s.respCount s.discovered [])
  | answered (hvalid : FrameValid f) (hdue : AnswerDue s (cmdOf f.b1) (addrOf f.b1)) (r : List Byte)
      (hr : r.length = 4 ∨ r.length = 6)
      (h : LeftWith s t T (nextCount s.params s.reqCount) (nextCount s.params s.respCount)
        (s.discovered || decide (cmdOf f.b1 = 0x8)) r)

theorem FrameOutcome.of_setRx {s t : State} {T : Nat} {f : Frame} {rest : List Byte}
    (h : FrameOutcome (s.setRx T rest) T f t) : FrameOutcome s T f t := by
  cases h with
  | dropped hvalid h => exact .dropped hvalid h.of_setRx
  | silent hvalid hdue h => exact .silent hvalid hdue h.of_setRx
  | answered hvalid hdue r hr h => exact .answered hvalid hdue r hr h.of_setRx

/-- A nibble that is none of the three commands lies below or above them. -/
theorem toNat_of_ne_commands {c : Nibble} : ¬(c = 0x8 ∨ c = 0x9 ∨ c = 0xA) → c.toNat < 0x8 ∨ 0xA < c.toNat := by
  revert c
  decide

/-- A valid request that is not one to answer is left in silence: its address is filtered, its command is ignored, or
the slot is unoccupied. -/
theorem exec_request_silent {s : State} {T : Nat} {cmd addr : Nibble} {i : Instr} (hT : s.transport = some T)
    (hi : IsRequest i cmd addr (chk2 LEN4 (cmdAddr cmd addr))) (hdue : ¬AnswerDue s cmd addr) :
    ∃ t, exec i s = .next t ∧ LeftWith s t T (nextCount s.params s.reqCount) s.respCount s.discovered [] := by
  by_cases ha : 1 ≤ addr.toNat ∧ addr.toNat ≤ 4
  · by_cases hcmd : cmd = 0x8 ∨ cmd = 0x9 ∨ cmd = 0xA
    · obtain ⟨k, hk⟩ := exists_slot_of_addr ha
      have hslot : s.slots[k] = none := by
        by_contra hocc
        exact hdue ⟨hcmd, k, hk, hocc⟩
      obtain ⟨t, hexec, hleft⟩ := unoccupiedSlotAnswersNothing s T cmd addr _ k i _ hT hi hcmd hk hslot rfl rfl
      exact ⟨t, hexec, hleft.leftWith⟩
    · obtain ⟨t, hexec, hleft⟩ :=
        unhandledCommandAnswersNothing s T cmd addr _ i _ hT hi (toNat_of_ne_commands hcmd) ha.1 ha.2 rfl rfl
      exact ⟨t, hexec, hleft.leftWith⟩
  · obtain ⟨t, hexec, hleft⟩ := unhandledAddressAnswersNothing s T cmd addr _ i _ hT hi (by omega) rfl rfl
    exact ⟨t, hexec, hleft.leftWith⟩

/-- A valid request that is one to answer is answered in 4 or 6 bytes, and the flag set where it is a DISCOVER. -/
theorem exec_request_answered {s : State} {T : Nat} {cmd addr : Nibble} {i : Instr} (hT : s.transport = some T)
    (hi : IsRequest i cmd addr (chk2 LEN4 (cmdAddr cmd addr))) (hdue : AnswerDue s cmd addr) :
    ∃ t r, exec i s = .next t ∧ (r.length = 4 ∨ r.length = 6) ∧
      LeftWith s t T (nextCount s.params s.reqCount) (nextCount s.params s.respCount)
        (s.discovered || decide (cmd = 0x8)) r := by
  obtain ⟨hcmd, k, ha, hocc⟩ := hdue
  obtain ⟨slot, hs⟩ := Option.ne_none_iff_exists'.1 hocc
  rcases hcmd with rfl | rfl | rfl
  · obtain rfl := hi.unique (.inl ⟨rfl, rfl⟩)
    refine ⟨_, discoverResponse (cmdAddr CMD_DISCOVER addr), exec_reqDiscover_occupied hT ha hs, .inl rfl, ?_⟩
    simpa using (leftAnswered_setDiscovered s T _ _).leftWith
  · obtain rfl := hi.unique (.inr (.inl ⟨rfl, rfl⟩))
    refine ⟨_, typeResponse addr slot.type, exec_reqType_occupied hT ha hs, .inr rfl, ?_⟩
    simpa using (leftAnswered s T _ _).leftWith
  · obtain rfl := hi.unique (.inr (.inr (.inl ⟨rfl, rfl⟩)))
    refine ⟨_, measurementResponse addr slot.value, exec_reqMeasurement_occupied hT ha hs, .inr rfl, ?_⟩
    simpa using (leftAnswered s T _ _).leftWith

theorem exists_decodeFrame {f : Frame} (hb : f.b0 = LEN4) : ∃ i, decodeFrame f = some i := by
  rcases decodeFrame_cases f hb with ⟨h, -⟩ | ⟨h, -⟩ | ⟨h, -⟩ | ⟨h, -⟩ | ⟨h, -⟩ <;> exact ⟨_, h⟩

/-- With a transport bound every frame is handled, in one of the three ways: the length check first, then the checksum
check, then the dispatch. -/
theorem serveFrame_outcome {s : State} {T : Nat} (hT : s.transport = some T) (f : Frame) :
    ∃ t, serveFrame T f s = .next t ∧ FrameOutcome s T f t := by
  by_cases hb : f.b0 = LEN4
  · obtain ⟨i, hd⟩ := exists_decodeFrame hb
    obtain ⟨-, hi⟩ := decodeFrame_eq_some.1 hd
    have hb1 := cmdAddr_cmdOf_addrOf f.b1
    rw [serveFrame_of_decodeFrame hd]
    by_cases hchk : rxChk f = chk2 f.b0 f.b1
    · rw [hchk, hb, ← congrArg (chk2 LEN4) hb1] at hi
      by_cases hdue : AnswerDue s (cmdOf f.b1) (addrOf f.b1)
      · obtain ⟨t, r, hexec, hr, hleft⟩ := exec_request_answered hT hi hdue
        exact ⟨t, hexec, .answered ⟨hb, hchk⟩ hdue r hr hleft⟩
      · obtain ⟨t, hexec, hleft⟩ := exec_request_silent hT hi hdue
        exact ⟨t, hexec, .silent ⟨hb, hchk⟩ hdue hleft⟩
    · have hne : rxChk f ≠ chk2 LEN4 (cmdAddr (cmdOf f.b1) (addrOf f.b1)) := by
        rw [hb1, ← hb]
        exact hchk
      obtain ⟨t, hexec, hleft⟩ := badChecksumIsDroppedUncounted s T _ _ _ i _ hT hi hne rfl
      exact ⟨t, hexec, .dropped (fun hv => hchk hv.2) hleft.leftWith⟩
  · have hd : decodeFrame f = none := if_neg hb
    exact ⟨_, serveFrame_of_decodeFrame_none hd T s,
      .dropped (fun hv => hb hv.1) (leftInSilence_dropped s T f _).leftWith⟩

/-- Settles O30: of the three ways in which the frame's handling can end, the premises pick one. -/
theorem pollAnswersExactlyWhenItShould : Obligations.PollAnswersExactlyWhenItShould := by
  intro s T b0 c0 c1 cmd addr rest valid answered hT hrx hvalid hanswered
  let f : Frame := { b0 := b0, b1 := cmd ++ addr, b2 := c0, b3 := c1 }
  obtain ⟨t, hserve, hout⟩ := serveFrame_outcome (s := s.setRx T rest) hT f
  have hcmd : cmdOf f.b1 = cmd := cmdOf_cmdAddr cmd addr
  have haddr : addrOf f.b1 = addr := addrOf_cmdAddr cmd addr
  have hv : valid ↔ FrameValid f := hvalid
  have hans : answered ↔ valid ∧ AnswerDue s cmd addr := hanswered
  have hpoll : exec .hostPoll s = .next (t.answer .done) := by
    rw [exec_hostPoll_of_frame (f := f) hT hrx, hserve]
    rfl
  refine ⟨t.answer .done, hpoll, ?_⟩
  rw [hans, hv, ← hcmd, ← haddr]
  cases hout.of_setRx with
  | dropped hbad h =>
    exact ⟨fun ⟨hok, _⟩ => absurd hok hbad, fun _ => ⟨by simpa using h.tx, h.respCount⟩,
      fun hok => absurd hok hbad, fun _ => h.reqCount,
      fun ⟨⟨hok, _⟩, _⟩ => absurd hok hbad, fun _ => h.discovered, h.other, h.answer_done_eq⟩
  | silent hok hdue h =>
    exact ⟨fun ⟨_, hd⟩ => absurd hd hdue, fun _ => ⟨by simpa using h.tx, h.respCount⟩,
      fun _ => h.reqCount, fun hbad => absurd hok hbad,
      fun ⟨⟨_, hd⟩, _⟩ => absurd hd hdue, fun _ => h.discovered, h.other, h.answer_done_eq⟩
  | answered hok hdue r hr h =>
    have hdisc {p : Bool} (hp : decide (cmdOf f.b1 = 0x8) = p) : t.discovered = (s.discovered || p) := by
      rw [← hp]
      exact h.discovered
    exact ⟨fun _ => ⟨⟨r, hr, h.tx⟩, h.respCount⟩, fun hno => absurd ⟨hok, hdue⟩ hno,
      fun _ => h.reqCount, fun hbad => absurd hok hbad,
      fun ⟨_, h8⟩ => (hdisc (decide_eq_true h8)).trans (Bool.or_true _),
      fun hno => (hdisc (decide_eq_false fun h8 => hno ⟨⟨hok, hdue⟩, h8⟩)).trans (Bool.or_false _),
      h.other, h.answer_done_eq⟩

end Sys2Proof.Machine
end

section
/-! PROOFS. 44_host_interface.md: the two counters of every instance (R197), INIT (R190), the accessors (R196, R197,
R198) and the debug toggle (R199). -/

namespace Sys2Proof.Machine

open Sys2Proof

/-! ## The two counters (44_host_interface.md R197, 43_dispatch.md R160, R175) -/

theorem nextCount_of_lt {p : Params} {n : Nat} (h : n + 1 < 2 ^ p.cntW) : nextCount p n = n + 1 := Nat.mod_eq_of_lt h

/-- The counts of an instance are in order, and its next request does not wrap the counter. -/
def Block.InOrderBelowWrap (p : Params) (b : Block) : Prop := b.respCount ≤ b.reqCount ∧ b.reqCount + 1 < 2 ^ p.cntW

/-- The handling of a frame counts the request before it counts a response, and no response without a request. -/
theorem Served.respCount_le {T : Nat} {s m : State} (h : Served T s m) (hs : s.toBlock.InOrderBelowWrap s.params) :
    m.respCount ≤ m.reqCount := by
  obtain ⟨hle, hwrap⟩ := hs
  have hreq : nextCount s.params s.reqCount = s.reqCount + 1 := nextCount_of_lt hwrap
  have hresp : nextCount s.params s.respCount = s.respCount + 1 :=
    nextCount_of_lt (Nat.lt_of_le_of_lt (Nat.succ_le_succ hle) hwrap)
  cases h with
  | dropped e => simpa using hle
  | silent e =>
    have hsilent : s.respCount ≤ s.reqCount + 1 := Nat.le_succ_of_le hle
    simpa [hreq] using hsilent
  | answered r hlen hr => simpa [hreq, hresp] using hle
  | discovered r hlen hr => simpa [hreq, hresp] using hle

/-- Of the host transactions POLL alone writes the counters, by the handling of a frame. -/
theorem Ran.respCount_le {s t : State} {i : Instr} (h : Ran s i t) (hport : i.port = .host)
    (hs : s.toBlock.InOrderBelowWrap s.params) : t.respCount ≤ t.reqCount := by
  obtain ⟨hle, hwrap⟩ := hs
  cases h with
  | request T f m hp hT h hd => exact absurd (hp.symm.trans hport) (by decide)
  | response T r hp hT hr => exact absurd (hp.symm.trans hport) (by decide)
  | init T hT hp => exact hle
  | pollIdle T hT h => exact hle
  | poll T f rest m hT hrx h => exact h.respCount_le ⟨by simpa using hle, by simpa using hwrap⟩
  | setDebug e => exact hle
  | upsert ty v hi => rw [upsertAnswered_eq]; exact hle
  | read r hp hi => exact hle

/-- A host transaction keeps the counts of its instance in order, whatever its outcome. -/
theorem respCount_le_conclude_exec {i : Instr} {s : State} (hport : i.port = .host)
    (hs : s.toBlock.InOrderBelowWrap s.params) :
    (s.conclude (exec i s)).respCount ≤ (s.conclude (exec i s)).reqCount := by
  rcases conclude_exec_cases i s with ⟨t, ht, e⟩ | ⟨r, e⟩ | ⟨r, e⟩ <;> rw [e, State.settle_toBlock]
  · exact ht.respCount_le hport hs
  · exact hs.1
  · exact hs.1

theorem respCount_le_runHost {s t : State} {bytes : List Byte}
    (hs : ∀ b ∈ s.toBlock :: s.peers, b.InOrderBelowWrap s.params) (h : runHost bytes s = .next t) :
    ∀ b ∈ t.toBlock :: t.peers, b.respCount ≤ b.reqCount := by
  obtain ⟨-, -, i, after, hd, rfl⟩ := runHost_next h
  obtain ⟨hhand, hpeers⟩ := List.forall_mem_cons.1 hs
  rw [conclude_exec_peers]
  exact List.forall_mem_cons.2
    ⟨respCount_le_conclude_exec (port_of_decodeHost hd) hhand, fun b hb => (hpeers b hb).1⟩

/-- Settles O33: a host transaction keeps the counts of its instance in order, and after any other act every instance is
as it was or just constructed. -/
theorem responsesNeverOutnumberRequests : Obligations.ResponsesNeverOutnumberRequests := by
  intro s s' hs h
  by_cases hm : ∃ bytes late, s.agenda.head? = some (.host bytes late)
  · obtain ⟨bytes, late, hm⟩ := hm
    obtain ⟨rest, hagenda⟩ := List.head?_eq_some_iff.1 hm
    rw [step_cons hagenda] at h
    exact respCount_le_runHost (s := { s with agenda := rest, arriving := late }) hs h
  · have hrest := engineAtRest_step (fun bytes late e => hm ⟨bytes, late, e⟩) h
    intro b hb
    rcases hrest.blocks b hb with rfl | hb
    · exact Nat.le_refl 0
    · exact (hs b hb).1

/-! ## INIT (44_host_interface.md R190, 60_exceptions.md R243) -/

theorem takenByPeer_iff (s : State) (T : Nat) : s.takenByPeer T = true ↔ ∃ b ∈ s.peers, b.transport = some T := by
  simp [State.takenByPeer]

theorem exec_hostInit_of_bound {s : State} {T' : Nat} (h : s.transport = some T') (T : Nat) :
    exec (.hostInit T) s = .fault .rebind := by
  simp only [exec, execHostInit, Block.bound, h, Option.isSome_some, if_true]

/-- INIT of an unbound instance looks for its transport among the other instances. -/
theorem exec_hostInit_of_unbound {s : State} (h : s.transport = none) (T : Nat) :
    exec (.hostInit T) s =
      if s.takenByPeer T then .refused .sharedTransport
      else .next (State.answer .done { s with transport := some T }) := by
  simp only [exec, execHostInit, Block.bound, h, Option.isSome_none, Bool.false_eq_true, if_false]

/-- Settles O34: whether the instance is bound decides first, then whether another instance has the transport. -/
theorem initBindsOnceAndAlone : Obligations.InitBindsOnceAndAlone := by
  intro s T
  refine ⟨fun hT hfree => ?_, fun T' hT => exec_hostInit_of_bound hT T, fun hT b hb hbT => ?_⟩
  · have hnot : ¬s.takenByPeer T = true := by
      rw [takenByPeer_iff]
      rintro ⟨b, hb, hbT⟩
      exact hfree b hb hbT
    rw [exec_hostInit_of_unbound hT, if_neg hnot]
    rfl
  · rw [exec_hostInit_of_unbound hT, if_pos ((takenByPeer_iff s T).2 ⟨b, hb, hbT⟩)]

/-! ## The accessors and the debug toggle (44_host_interface.md R196 to R199) -/

/-- Settles O35: each accessor answers with its register, and an answer is recorded and does nothing else. -/
theorem accessorsReturnTheirRegister : Obligations.AccessorsReturnTheirRegister := fun _ => ⟨rfl, rfl, rfl⟩

/-- Settles O36: the toggle is written, then the transaction answers. -/
theorem setDebugWritesTheToggle : Obligations.SetDebugWritesTheToggle := fun _ _ => rfl

end Sys2Proof.Machine
end

section
/-! PROOFS. 60_exceptions.md: what a fault or a refusal leaves (R226), what moves the counters, the discovered flag and the
transports (R233), and the receiver between transactions (R238, 20_memory.md R71). -/

namespace Sys2Proof.Machine

open Sys2Proof

/-! ## A fault or a refusal (60_exceptions.md R226) -/

/-- What the end of a transaction does to the queues: of all of them it writes the `RX` of the bound transport alone. -/
theorem settle_queues (s : State) :
    (∀ T, s.settle.tx T = s.tx T) ∧ (∀ T, s.transport = some T → s.settle.rx T = s.rx T ++ s.arriving) ∧
      ∀ T, s.transport ≠ some T → s.settle.rx T = s.rx T := by
  cases hT : s.transport with
  | none =>
    rw [State.settle_unbound hT]
    exact ⟨fun _ => rfl, nofun, fun _ _ => rfl⟩
  | some T =>
    rw [State.settle_bound hT]
    refine ⟨State.tx_arrive s T, ?_, fun T' hT' => State.rx_arrive_other s T T' fun e => hT' (congrArg some e.symm)⟩
    rintro _ ⟨⟩
    exact State.rx_arrive s T

/-- Settles O46: the step settles the marked state, and settling writes no more than the bytes still arriving. -/
theorem faultAndRefusalLeaveOnlyTheMark : Obligations.FaultAndRefusalLeaveOnlyTheMark := by
  intro s s0 rest bytes late after i hagenda hfaulted hrefused hd hs0
  have hruns := stepRunsThePresentedInstruction s s0 rest bytes late after i hagenda hfaulted hrefused hd hs0
  obtain ⟨-, hfault, hrefuse⟩ := hruns
  subst hs0
  exact ⟨fun r h => ⟨_, hfault r h, State.settle_eq _, settle_queues _⟩,
    fun r h => ⟨_, hrefuse r h, State.settle_eq _, settle_queues _⟩⟩

/-! ## What moves the counters, the flag and the transports (60_exceptions.md R233) -/

/-- A host transaction but POLL, or a table operation, binds, writes the toggle or the table, or only answers. -/
theorem Ran.keeps_counters_and_wires {s t : State} {i : Instr} (h : Ran s i t)
    (hport : i.port = .host ∨ i.port = .table) (hpoll : i ≠ .hostPoll) :
    t.reqCount = s.reqCount ∧ t.respCount = s.respCount ∧ t.discovered = s.discovered ∧ t.wires = s.wires := by
  cases h with
  | request T f m hp hT h hd => simp [hp] at hport
  | response T r hp hT hr => simp [hp] at hport
  | init T hT hp => exact ⟨rfl, rfl, rfl, rfl⟩
  | pollIdle T hT h => exact absurd rfl hpoll
  | poll T f rest m hT hrx h => exact absurd rfl hpoll
  | setDebug e => exact ⟨rfl, rfl, rfl, rfl⟩
  | upsert ty v hi => rw [upsertAnswered_eq]; exact ⟨rfl, rfl, rfl, rfl⟩
  | read r hp hi => exact ⟨rfl, rfl, rfl, rfl⟩

/-- Settles O54: the list of transports is kept whole, so each of its queues is. -/
theorem onlyPollMovesCountersAndWires : Obligations.OnlyPollMovesCountersAndWires := by
  intro i s s' hport hpoll h
  obtain ⟨hreq, hresp, hdiscovered, hwires⟩ := (exec_ran h).keeps_counters_and_wires hport hpoll
  exact ⟨hreq, hresp, hdiscovered, fun T => ⟨State.rx_congr hwires T, State.tx_congr hwires T⟩⟩

/-! ## The receiver (60_exceptions.md R238, 20_memory.md R71) -/

/-- Settles O50: the receiver's act writes the `RX` of its transport, and no other queue. -/
theorem receiverAppendsBetweenTransactions : Obligations.ReceiverAppendsBetweenTransactions := by
  intro s T bytes rest hagenda
  refine ⟨State.rxAppend T bytes { s with agenda := rest }, step_cons hagenda, ?_, ?_, fun T' hT' => ⟨?_, ?_⟩, rfl⟩
  · exact State.rx_setRx _ T _
  · exact State.tx_setRx _ T T _
  · exact State.rx_setRx_other _ T T' _ hT'
  · exact State.tx_setRx _ T T' _

end Sys2Proof.Machine
end
